-- ==== Sys2Proof/Word.lean ====
section
/-!
DEFINITION. The word types of the Anachron KCPU (spec/00_scope.md R5, R10): a register, an
address and FIELD_I are 32 bits, the first halfword INST is 16 bits, the unit of addressing is
the byte. Bits are numbered from 0, the least significant (R7).
-/

namespace Sys2Proof

/-- A register value, an address or FIELD_I (R5, R10). -/
abbrev Word := BitVec 32

/-- A halfword: INST, and the unit of instruction fetch (R65, R90). -/
abbrev Half := BitVec 16

/-- One byte, the unit of addressing (R60). -/
abbrev Byte := BitVec 8

/-- The stored part [31:1] of a program counter, a 31-bit register (R35). -/
abbrev PcBits := BitVec 31

end Sys2Proof
end

