-- ==== Sys2Proof/Config.lean ====
section
/-!
DEFINITION. What an implementation fixes: the named parameters of spec/00_scope.md R6 as one
record of plain data, with the defaults the spec takes, and the values that stay uninterpreted as
opaque constants (FP, an unsettled SHIFT_AMOUNT, the page-table walk). The record is a field of
State, so that a statement about every state holds for every setting (notes/assumptions/5.md).
-/

namespace Sys2Proof

/-- Memory: (address, byte) pairs in one canonical form (Machine/Ops.lean, `Memory.wf`). -/
abbrev Memory := List Host.Cell

/-- The two execution modes (R41, R370). -/
inductive Mode where
  | task
  | scheduler
  deriving DecidableEq, Repr

/-- `BYTE_ORDER` (R62, D1). -/
inductive ByteOrder where
  /-- The byte at the lowest address is bits [7:0]: the spec's default. -/
  | little
  /-- The byte at the lowest address is the most significant one. -/
  | big
  deriving DecidableEq, Repr

/-- `SHIFT_AMOUNT`, what an amount operand of 32 or more does (R153, D5); notes/assumptions/8.md. -/
inductive ShiftPolicy where
  /-- The low five bits of the amount operand: the spec's default. -/
  | lowFive
  /-- An amount of 32 or more shifts every bit out (95_test_vectors V-PA4, V-PA5). -/
  | saturate
  /-- Amounts 0 to 31 as written; nothing is known of the others. -/
  | unsettled
  deriving DecidableEq, Repr

/-- The base of a relative branch where `PC_READ_BIAS` is not 0, on which the spec's files differ;
with bias 0 the two are one (R260; notes/assumptions/7.md). -/
inductive BranchBase where
  /-- What a read of index 0 returns: the base moves with the bias (D4). -/
  | asRead
  /-- `pc`, the address of the branch, whatever the bias is (95_test_vectors V-PA3). -/
  | ownAddress
  deriving DecidableEq, Repr

/-- `MISALIGNED_POLICY` (R68, D10); notes/assumptions/10.md. -/
inductive MisalignedPolicy where
  /-- A misaligned data access is the model fault Misaligned: the spec's default. -/
  | modelFault
  /-- The bytes are accessed as they lie (95_test_vectors V-PA8). -/
  | asTheyLie
  deriving DecidableEq, Repr

/-- The width of one access: 8, 16 or 32 bits (R69). -/
inductive Size where
  | byte
  | half
  | word
  deriving DecidableEq, Repr

/-- The kind of an access that `Translate` is asked about (R66). -/
inductive AccessKind where
  | fetch
  | read
  | write
  deriving DecidableEq, Repr

/-- The answer of `Translate` (R66). -/
inductive Translation where
  | permitted (paddr : Word)
  | refused
  deriving DecidableEq, Repr

/-- One rule of an MMU given as data: it decides the accesses of one mode and one kind whose
address lies in `lo .. hi`. `target` is `none` where they are refused, and the physical address
that `lo` maps to where they are permitted (R66; notes/assumptions/11.md). -/
structure MmuRule where
  mode : Mode
  kind : AccessKind
  lo : Word
  hi : Word
  target : Option Word
  deriving DecidableEq, Repr

/-- `Translate` (R66, D17), whose format the spec does not give (N7). -/
inductive Mmu where
  /-- The first rule that covers the access decides; an access that no rule covers is permitted
  at its own address. With no rule this is the spec's default: identity, everything permitted. -/
  | rules (l : List MmuRule)
  /-- Page tables in memory, walked by a function of which nothing is known (`pageWalk`). -/
  | tables
  deriving DecidableEq, Repr

/-- The spec's default `Translate` (R66). -/
def Mmu.identity : Mmu := .rules []

/-- The parameters of R6 that are plain data, and `branchBase`. They are fixed for a machine: no step changes them. -/
structure Config where
  /-- `BYTE_ORDER` (R62). -/
  byteOrder : ByteOrder
  /-- `PC_READ_BIAS` (R12, R37). -/
  pcReadBias : Word
  /-- The base of a relative branch (R260, D4): no parameter of R6, but the model's own field for a
  point on which the spec's files differ (notes/assumptions/7.md). -/
  branchBase : BranchBase
  /-- `SHIFT_AMOUNT` (R153). -/
  shiftPolicy : ShiftPolicy
  /-- `MISALIGNED_POLICY` (R68). -/
  misaligned : MisalignedPolicy
  /-- `Translate` (R66). -/
  mmu : Mmu
  /-- `IFETCH_COHERENT` (R79). -/
  ifetchCoherent : Bool
  deriving DecidableEq, Repr

/-- The defaults of R6 (D1, D3, D5, D10, D17, D20), and D4 for the base of a relative branch. -/
def Config.default : Config where
  byteOrder := .little
  pcReadBias := 0
  branchBase := .asRead
  shiftPolicy := .lowFive
  misaligned := .modelFault
  mmu := .identity
  ifetchCoherent := false

/-- `RESET_SPC`, bits [31:1]: address 0x00000000, as R48 suggests; DESIGN CHOICE,
notes/assumptions/3.md. -/
def resetSpc : PcBits := 0

/-! The record `FP` of R235: total functions on words of which nothing else is claimed (D9, D31;
notes/assumptions/9.md). -/

/-- `FP.add(b, a)` (R235). -/
opaque FP.add : Word → Word → Word
/-- `FP.sub(b, a)`, b minus a (R235). -/
opaque FP.sub : Word → Word → Word
/-- `FP.mul(b, a)` (R235). -/
opaque FP.mul : Word → Word → Word
/-- `FP.recip(a)`, 1 / a (R235). -/
opaque FP.recip : Word → Word
/-- `FP.rsqrt(b)`, 1 / sqrt(b) (R235). -/
opaque FP.rsqrt : Word → Word
/-- `FP.i2f(b)`, signed integer to float (R235). -/
opaque FP.i2f : Word → Word
/-- `FP.f2i(a)`, float to signed integer; the rounding direction is part of it (R240, D31). -/
opaque FP.f2i : Word → Word
/-- `FP.lt(b, a)`, b < a (R235, R247). -/
opaque FP.lt : Word → Word → Bool
/-- `FP.ge(b, a)`, b >= a; not assumed to be the complement of `FP.lt` (R235, U12). -/
opaque FP.ge : Word → Word → Bool

/-- The number of positions that an amount operand of 32 or more shifts by, under
`ShiftPolicy.unsettled` (R153, U8; notes/assumptions/8.md). -/
opaque openShiftAmount : Word → Nat

/-- The page-table walk of `Mmu.tables`, given memory as other agents see it, memory as the core
sees it, and the access (R66, U13; notes/assumptions/11.md). -/
opaque pageWalk : (performed view : Memory) → Mode → Word → Size → AccessKind → Translation :=
  fun _ _ _ _ _ _ => .refused

end Sys2Proof
end

