-- ==== Sys2Proof/Syntax.lean ====
section
/-!
DEFINITION. The instructions of the KCPU: one constructor for each of the 155 rows of
spec/opcode_table.json (spec/30_encoding.md R100 to R107, R117). Register fields are typed, so
that 0xf never stands in one (R95); the fields that the types leave wider than their row are
checked in WellFormed.lean.
-/

namespace Sys2Proof

/-- A four-bit field of INST (R90). -/
inductive Nib where
  | x0 | x1 | x2 | x3 | x4 | x5 | x6 | x7 | x8 | x9 | xa | xb | xc | xd | xe | xf
  deriving DecidableEq, Repr

/-- The fourteen general registers (R30). -/
inductive Gpr where
  | r1 | r2 | r3 | r4 | r5 | r6 | r7 | r8 | r9 | ra | rb | rc | rd | re
  deriving DecidableEq, Repr

/-- The fifteen addressable registers: index 0, the current mode's program counter, and the
general registers (R31). -/
inductive Reg where
  | pc
  | gp (g : Gpr)
  deriving DecidableEq, Repr

/-- The instructions. Arguments stand in the order of the fields C, B, A, D and FIELD_I:
`b`, `a`, `d` are FIELD_B, FIELD_A and FIELD_D, `n` is a bit number, `imm` is VALUE (R97), and
`off`, `rel` are OFFSET and R of a branch (R98). -/
inductive Instr where
  -- ALU form A, group CBAD, 16 bits (40_alu_form_a)
  /-- `0000bbbbaaaadddd` (R131). -/
  | xor (b a d : Reg)
  /-- `0001bbbbaaaadddd` (R132). -/
  | or (b a d : Reg)
  /-- `0010bbbbaaaadddd` (R133). -/
  | and (b a d : Reg)
  /-- `0011bbbbaaaadddd` (R134). -/
  | sub (b a d : Reg)
  /-- `0100bbbbaaaadddd` (R135). -/
  | add (b a d : Reg)
  /-- `0101bbbbaaaadddd` (R136). -/
  | shl (b a d : Reg)
  /-- `0110bbbbaaaadddd` (R137). -/
  | shr (b a d : Reg)
  /-- `0111bbbbaaaadddd` (R138). -/
  | sar (b a d : Reg)
  /-- `1000bbbbaaaadddd` (R139). -/
  | muls (b : Gpr) (a d : Reg)
  /-- `1001bbbbaaaadddd` (R140). -/
  | mulu (b a d : Gpr)
  /-- `1010bbbbaaaadddd` (R141). -/
  | mulhs (b a d : Gpr)
  /-- `1011bbbbaaaadddd` (R142). -/
  | mulhu (b a d : Gpr)
  /-- `10000000aaaadddd` (R146). -/
  | xmov (a d : Reg)
  /-- `10010000aaaadddd` (R143). -/
  | inc (a d : Gpr)
  /-- `1001bbbb0000dddd` (R144). -/
  | dec (b d : Gpr)
  /-- `10100000aaaadddd` (R145). -/
  | neg (a d : Gpr)
  /-- `1010bbbb0000dddd` (R147). -/
  | not (b d : Gpr)
  /-- `10110000aaaadddd` (R148). -/
  | bswap (a d : Gpr)
  /-- `1011bbbb0000dddd` (R149). -/
  | wswap (b d : Gpr)
  /-- `11000000aaaadddd` (R150). -/
  | bsi (a d : Gpr)
  /-- `1100bbbb0000dddd` (R151). -/
  | wsi (b d : Gpr)
  -- System instructions, group CBAD, 16 bits (41_system)
  /-- `0000000000000000` (R170). -/
  | fill
  /-- `0000000100010000` (R171). -/
  | brk
  /-- `0000001000100000` (R172). -/
  | syscall
  /-- `0000001100110000` (R173). -/
  | stu
  /-- `0000110111010000` (R175). -/
  | fence
  /-- `0000111011100000` (R176). -/
  | wfence
  /-- `0001000000000000` (R177). -/
  | woi
  -- ALU form B and load immediate, groups CBD and CD, 48 bits (42_alu_form_b)
  /-- `0000bbbb1111dddd` (R191). -/
  | xori (b d : Reg) (imm : Word)
  /-- `0001bbbb1111dddd` (R193). -/
  | ori (b d : Reg) (imm : Word)
  /-- `0010bbbb1111dddd` (R195). -/
  | andi (b d : Reg) (imm : Word)
  /-- `0011bbbb1111dddd` (R196). -/
  | subi (b d : Reg) (imm : Word)
  /-- `0100bbbb1111dddd` (R197). -/
  | addi (b d : Reg) (imm : Word)
  /-- `0101bbbb1111dddd` (R198). -/
  | shli (b d : Reg) (imm : Word)
  /-- `0110bbbb1111dddd` (R199). -/
  | shri (b d : Reg) (imm : Word)
  /-- `0111bbbb1111dddd` (R200). -/
  | sari (b d : Reg) (imm : Word)
  /-- `1000bbbb1111dddd` (R201). -/
  | mulsi (b d : Reg) (imm : Word)
  /-- `1001bbbb1111dddd` (R202). -/
  | mului (b d : Reg) (imm : Word)
  /-- `1010bbbb1111dddd` (R203). -/
  | mulhsi (b d : Reg) (imm : Word)
  /-- `1011bbbb1111dddd` (R204). -/
  | mulhui (b d : Reg) (imm : Word)
  /-- `000011111111dddd` (R192). -/
  | li (d : Reg) (imm : Word)
  /-- `000111111111dddd` (R194). -/
  | lit (d : Reg) (imm : Word)
  -- ALU form C, group CAD, 48 bits (43_alu_form_c)
  /-- `00111111aaaadddd` (R221). -/
  | isub (a d : Reg) (imm : Word)
  /-- `01011111aaaadddd` (R222). -/
  | ishl (a d : Reg) (imm : Word)
  /-- `01101111aaaadddd` (R223). -/
  | ishr (a d : Reg) (imm : Word)
  /-- `01111111aaaadddd` (R224). -/
  | isar (a d : Reg) (imm : Word)
  -- Floating point (44_float)
  /-- `1100bbbbaaaadddd` (R236). -/
  | fadd (b a d : Gpr)
  /-- `1101bbbbaaaadddd` (R237). -/
  | fsub (b a d : Gpr)
  /-- `1110bbbbaaaadddd` (R238). -/
  | fmul (b a d : Gpr)
  /-- `11010000aaaadddd` (R240). -/
  | ftoi (a d : Gpr)
  /-- `1101bbbb0000dddd` (R239). -/
  | itof (b d : Gpr)
  /-- `11100000aaaadddd` (R242). -/
  | frecip (a d : Gpr)
  /-- `1110bbbb0000dddd` (R241). -/
  | frsqrt (b d : Gpr)
  /-- `1100bbbb1111dddd` (R243). -/
  | faddi (b d : Gpr) (imm : Word)
  /-- `1101bbbb1111dddd` (R244). -/
  | fsubi (b d : Gpr) (imm : Word)
  /-- `1110bbbb1111dddd` (R245). -/
  | fmuli (b d : Gpr) (imm : Word)
  /-- `11011111aaaadddd` (R246). -/
  | ifsub (a d : Gpr) (imm : Word)
  -- Branches, groups CBA, CA and CB, 48 bits (45_branches)
  /-- `0000bbbb00001111` (R261). -/
  | beqz (b : Reg) (off : PcBits) (rel : Bool)
  /-- `0000bbbb00011111` (R262). -/
  | bnez (b : Reg) (off : PcBits) (rel : Bool)
  /-- `0000bbbb00101111` (R263). -/
  | bltz (b : Reg) (off : PcBits) (rel : Bool)
  /-- `0000bbbb00111111` (R264). -/
  | bgez (b : Reg) (off : PcBits) (rel : Bool)
  /-- `0000bbbb01001111` (R265). -/
  | bgtz (b : Reg) (off : PcBits) (rel : Bool)
  /-- `0000bbbb01011111` (R266). -/
  | blez (b : Reg) (off : PcBits) (rel : Bool)
  /-- `0001bbbbaaaa1111` (R267). -/
  | beq (b a : Reg) (off : PcBits) (rel : Bool)
  /-- `0010bbbbaaaa1111` (R268). -/
  | bne (b a : Reg) (off : PcBits) (rel : Bool)
  /-- `0011bbbbaaaa1111` (R269). -/
  | blts (b a : Reg) (off : PcBits) (rel : Bool)
  /-- `0100bbbbaaaa1111` (R270). -/
  | bges (b a : Reg) (off : PcBits) (rel : Bool)
  /-- `0101bbbbaaaa1111` (R271). -/
  | bltu (b a : Reg) (off : PcBits) (rel : Bool)
  /-- `0110bbbbaaaa1111` (R272). -/
  | bgeu (b a : Reg) (off : PcBits) (rel : Bool)
  /-- `1101bbbbaaaa1111` (R273). -/
  | bflt (b a : Reg) (off : PcBits) (rel : Bool)
  /-- `1110bbbbaaaa1111` (R274). -/
  | bfge (b a : Reg) (off : PcBits) (rel : Bool)
  /-- `cccc1111aaaa1111` (R275). -/
  | bbs (n : Nib) (a : Reg) (off : PcBits) (rel : Bool)
  /-- `ccccbbbb11111111` (R276). -/
  | bbc (n : Nib) (b : Reg) (off : PcBits) (rel : Bool)
  -- Loads and stores, form A, 16 bits (46_load_store)
  /-- `11110000aaaadddd` (R305). -/
  | ldsbA (a d : Reg)
  /-- `11110001aaaadddd` (R306). -/
  | ldubA (a d : Reg)
  /-- `11110010aaaadddd` (R307). -/
  | ldshA (a d : Reg)
  /-- `11110011aaaadddd` (R308). -/
  | lduhA (a d : Reg)
  /-- `11110100aaaadddd` (R309). -/
  | ldwA (a d : Reg)
  /-- `11110101aaaadddd` (R310). -/
  | stbA (a d : Reg)
  /-- `11110110aaaadddd` (R311). -/
  | sthA (a d : Reg)
  /-- `11110111aaaadddd` (R312). -/
  | stwA (a d : Reg)
  -- Loads and stores, form C, 48 bits; Tpc: the data register is TPC (46_load_store)
  /-- `111110001111dddd` (R313). -/
  | ldsbC (d : Reg) (imm : Word)
  /-- `1111100011111111` (R313). -/
  | ldsbCTpc (imm : Word)
  /-- `111110011111dddd` (R314). -/
  | ldubC (d : Reg) (imm : Word)
  /-- `1111100111111111` (R314). -/
  | ldubCTpc (imm : Word)
  /-- `111110101111dddd` (R315). -/
  | ldshC (d : Reg) (imm : Word)
  /-- `1111101011111111` (R315). -/
  | ldshCTpc (imm : Word)
  /-- `111110111111dddd` (R316). -/
  | lduhC (d : Reg) (imm : Word)
  /-- `1111101111111111` (R316). -/
  | lduhCTpc (imm : Word)
  /-- `111111001111dddd` (R317). -/
  | ldwC (d : Reg) (imm : Word)
  /-- `1111110011111111` (R317). -/
  | ldwCTpc (imm : Word)
  /-- `111111011111dddd` (R318). -/
  | stbC (d : Reg) (imm : Word)
  /-- `1111110111111111` (R318). -/
  | stbCTpc (imm : Word)
  /-- `111111101111dddd` (R319). -/
  | sthC (d : Reg) (imm : Word)
  /-- `1111111011111111` (R319). -/
  | sthCTpc (imm : Word)
  /-- `111111111111dddd` (R320). -/
  | stwC (d : Reg) (imm : Word)
  /-- `1111111111111111` (R320). -/
  | stwCTpc (imm : Word)
  -- Loads and stores, form D, 48 bits; Tpc: the data register is TPC (46_load_store)
  /-- `11111000aaaadddd` (R321). -/
  | ldsbD (a d : Reg) (imm : Word)
  /-- `11111000aaaa1111` (R321). -/
  | ldsbDTpc (a : Reg) (imm : Word)
  /-- `11111001aaaadddd` (R322). -/
  | ldubD (a d : Reg) (imm : Word)
  /-- `11111001aaaa1111` (R322). -/
  | ldubDTpc (a : Reg) (imm : Word)
  /-- `11111010aaaadddd` (R323). -/
  | ldshD (a d : Reg) (imm : Word)
  /-- `11111010aaaa1111` (R323). -/
  | ldshDTpc (a : Reg) (imm : Word)
  /-- `11111011aaaadddd` (R324). -/
  | lduhD (a d : Reg) (imm : Word)
  /-- `11111011aaaa1111` (R324). -/
  | lduhDTpc (a : Reg) (imm : Word)
  /-- `11111100aaaadddd` (R325). -/
  | ldwD (a d : Reg) (imm : Word)
  /-- `11111100aaaa1111` (R325). -/
  | ldwDTpc (a : Reg) (imm : Word)
  /-- `11111101aaaadddd` (R326). -/
  | stbD (a d : Reg) (imm : Word)
  /-- `11111101aaaa1111` (R326). -/
  | stbDTpc (a : Reg) (imm : Word)
  /-- `11111110aaaadddd` (R327). -/
  | sthD (a d : Reg) (imm : Word)
  /-- `11111110aaaa1111` (R327). -/
  | sthDTpc (a : Reg) (imm : Word)
  /-- `11111111aaaadddd` (R328). -/
  | stwD (a d : Reg) (imm : Word)
  /-- `11111111aaaa1111` (R328). -/
  | stwDTpc (a : Reg) (imm : Word)
  -- Reserved encodings, all SII; their fields are read by nothing (47_reserved, 41_system R174)
  /-- `0000bbbbaaaa0000` (R174). -/
  | siiXorHole (n : Nib)
  /-- `1001bbbbaaaa0000` (R351). -/
  | siiAD0_9 (b a : Reg)
  /-- `1010bbbbaaaa0000` (R351). -/
  | siiAD0_a (b a : Reg)
  /-- `1011bbbbaaaa0000` (R351). -/
  | siiAD0_b (b a : Reg)
  /-- `1100bbbbaaaa0000` (R351). -/
  | siiAD0_c (b a : Reg)
  /-- `1101bbbbaaaa0000` (R351). -/
  | siiAD0_d (b a : Reg)
  /-- `1110bbbbaaaa0000` (R351). -/
  | siiAD0_e (b a : Reg)
  /-- `100100000000dddd` (R351). -/
  | siiAB0A0_9 (d : Gpr)
  /-- `101000000000dddd` (R351). -/
  | siiAB0A0_a (d : Gpr)
  /-- `101100000000dddd` (R351). -/
  | siiAB0A0_b (d : Gpr)
  /-- `110000000000dddd` (R351). -/
  | siiAB0A0_c (d : Gpr)
  /-- `110100000000dddd` (R351). -/
  | siiAB0A0_d (d : Gpr)
  /-- `111000000000dddd` (R351). -/
  | siiAB0A0_e (d : Gpr)
  /-- `1100bbbb11110000` (R352). -/
  | siiBD0_c (b : Reg)
  /-- `1101bbbb11110000` (R352). -/
  | siiBD0_d (b : Reg)
  /-- `1110bbbb11110000` (R352). -/
  | siiBD0_e (b : Reg)
  /-- `110000001111dddd` (R352). -/
  | siiBB0_c (d : Gpr)
  /-- `110100001111dddd` (R352). -/
  | siiBB0_d (d : Gpr)
  /-- `111000001111dddd` (R352). -/
  | siiBB0_e (d : Gpr)
  /-- `00001111aaaadddd` (R353). -/
  | siiC_0 (a d : Reg)
  /-- `00011111aaaadddd` (R353). -/
  | siiC_1 (a d : Reg)
  /-- `00101111aaaadddd` (R353). -/
  | siiC_2 (a d : Reg)
  /-- `01001111aaaadddd` (R353). -/
  | siiC_4 (a d : Reg)
  /-- `10001111aaaadddd` (R353). -/
  | siiC_8 (a d : Reg)
  /-- `10011111aaaadddd` (R353). -/
  | siiC_9 (a d : Reg)
  /-- `10101111aaaadddd` (R353). -/
  | siiC_a (a d : Reg)
  /-- `10111111aaaadddd` (R353). -/
  | siiC_b (a d : Reg)
  /-- `11001111aaaadddd` (R353). -/
  | siiC_c (a d : Reg)
  /-- `11101111aaaadddd` (R353). -/
  | siiC_e (a d : Reg)
  /-- `11011111aaaa0000` (R353). -/
  | siiCD0_d (a : Reg)
  /-- `110111110000dddd` (R353). -/
  | siiCA0_d (d : Gpr)
  /-- `0000bbbbaaaa1111` (R354). -/
  | siiBr0 (b : Reg) (a : Nib)
  /-- `0111bbbbaaaa1111` (R354). -/
  | siiBr_7 (b a : Reg)
  /-- `1000bbbbaaaa1111` (R354). -/
  | siiBr_8 (b a : Reg)
  /-- `1001bbbbaaaa1111` (R354). -/
  | siiBr_9 (b a : Reg)
  /-- `1010bbbbaaaa1111` (R354). -/
  | siiBr_a (b a : Reg)
  /-- `1011bbbbaaaa1111` (R354). -/
  | siiBr_b (b a : Reg)
  /-- `1100bbbbaaaa1111` (R354). -/
  | siiBr_c (b a : Reg)
  /-- `cccc11111111dddd` (R355). -/
  | siiCD (c : Nib) (d : Reg)
  /-- `cccc111111111111` (R356). -/
  | siiCOnly (c : Nib)
  /-- `11110bbbaaaa1111` (R357). -/
  | siiLsADf (b a : Nib)
  /-- `11110bbb1111dddd` (R357). -/
  | siiLsAAf (b : Nib) (d : Reg)
  deriving DecidableEq, Repr

end Sys2Proof
end

