-- ==== Sys2Proof/WellFormed.lean ====
section
/-!
DEFINITION. Which terms of `Instr` are instructions: the `fields` and `where` entries of
spec/opcode_table.json that the types of the arguments do not already carry (R99, R101, R104 to
R107); which rows are reserved (47_reserved R350); and the length of each row (R92, R96).
-/

namespace Sys2Proof

/-- The value of a four-bit field, 0 to 15. -/
def Nib.val : Nib → Nat
  | .x0 => 0
  | .x1 => 1
  | .x2 => 2
  | .x3 => 3
  | .x4 => 4
  | .x5 => 5
  | .x6 => 6
  | .x7 => 7
  | .x8 => 8
  | .x9 => 9
  | .xa => 10
  | .xb => 11
  | .xc => 12
  | .xd => 13
  | .xe => 14
  | .xf => 15

/-- Every field holds a value its row of the opcode table admits. -/
def Instr.wf : Instr → Bool
  | .xor b a d => decide (¬ (d = .pc ∧ b = a))
  | .or b a d => decide (¬ (b = .pc ∧ a = .pc ∧ d = .pc))
  | .bbs n _ _ _ => decide (n.val ≤ 14)
  | .bbc n _ _ _ => decide (n.val ≤ 14)
  | .siiXorHole n => decide (4 ≤ n.val ∧ n.val ≤ 12)
  | .siiBr0 _ a => decide (6 ≤ a.val ∧ a.val ≤ 14)
  | .siiCD c _ => decide (2 ≤ c.val ∧ c.val ≤ 14)
  | .siiCOnly c => decide (c.val ≤ 14)
  | .siiLsADf b _ => decide (b.val ≤ 7)
  | .siiLsAAf b _ => decide (b.val ≤ 7)
  | .and .. | .sub .. | .add .. | .shl .. | .shr .. | .sar .. | .muls .. | .mulu .. | .mulhs ..
    | .mulhu .. | .xmov .. | .inc .. | .dec .. | .neg .. | .not .. | .bswap .. | .wswap .. |
    .bsi .. | .wsi .. | .fill | .brk | .syscall | .stu | .fence | .wfence | .woi | .xori .. |
    .ori .. | .andi .. | .subi .. | .addi .. | .shli .. | .shri .. | .sari .. | .mulsi .. |
    .mului .. | .mulhsi .. | .mulhui .. | .li .. | .lit .. | .isub .. | .ishl .. | .ishr .. |
    .isar .. | .fadd .. | .fsub .. | .fmul .. | .ftoi .. | .itof .. | .frecip .. | .frsqrt .. |
    .faddi .. | .fsubi .. | .fmuli .. | .ifsub .. | .beqz .. | .bnez .. | .bltz .. | .bgez .. |
    .bgtz .. | .blez .. | .beq .. | .bne .. | .blts .. | .bges .. | .bltu .. | .bgeu .. | .bflt
    .. | .bfge .. | .ldsbA .. | .ldubA .. | .ldshA .. | .lduhA .. | .ldwA .. | .stbA .. | .sthA
    .. | .stwA .. | .ldsbC .. | .ldsbCTpc .. | .ldubC .. | .ldubCTpc .. | .ldshC .. | .ldshCTpc
    .. | .lduhC .. | .lduhCTpc .. | .ldwC .. | .ldwCTpc .. | .stbC .. | .stbCTpc .. | .sthC .. |
    .sthCTpc .. | .stwC .. | .stwCTpc .. | .ldsbD .. | .ldsbDTpc .. | .ldubD .. | .ldubDTpc .. |
    .ldshD .. | .ldshDTpc .. | .lduhD .. | .lduhDTpc .. | .ldwD .. | .ldwDTpc .. | .stbD .. |
    .stbDTpc .. | .sthD .. | .sthDTpc .. | .stwD .. | .stwDTpc .. | .siiAD0_9 .. | .siiAD0_a ..
    | .siiAD0_b .. | .siiAD0_c .. | .siiAD0_d .. | .siiAD0_e .. | .siiAB0A0_9 .. | .siiAB0A0_a
    .. | .siiAB0A0_b .. | .siiAB0A0_c .. | .siiAB0A0_d .. | .siiAB0A0_e .. | .siiBD0_c .. |
    .siiBD0_d .. | .siiBD0_e .. | .siiBB0_c .. | .siiBB0_d .. | .siiBB0_e .. | .siiC_0 .. |
    .siiC_1 .. | .siiC_2 .. | .siiC_4 .. | .siiC_8 .. | .siiC_9 .. | .siiC_a .. | .siiC_b .. |
    .siiC_c .. | .siiC_e .. | .siiCD0_d .. | .siiCA0_d .. | .siiBr_7 .. | .siiBr_8 .. | .siiBr_9
    .. | .siiBr_a .. | .siiBr_b .. | .siiBr_c .. => true

/-- The 42 reserved rows of the table, all named SII (R350, R359). -/
def Instr.isReserved : Instr → Bool
  | .siiXorHole .. | .siiAD0_9 .. | .siiAD0_a .. | .siiAD0_b .. | .siiAD0_c .. | .siiAD0_d .. |
    .siiAD0_e .. | .siiAB0A0_9 .. | .siiAB0A0_a .. | .siiAB0A0_b .. | .siiAB0A0_c .. |
    .siiAB0A0_d .. | .siiAB0A0_e .. | .siiBD0_c .. | .siiBD0_d .. | .siiBD0_e .. | .siiBB0_c ..
    | .siiBB0_d .. | .siiBB0_e .. | .siiC_0 .. | .siiC_1 .. | .siiC_2 .. | .siiC_4 .. | .siiC_8
    .. | .siiC_9 .. | .siiC_a .. | .siiC_b .. | .siiC_c .. | .siiC_e .. | .siiCD0_d .. |
    .siiCA0_d .. | .siiBr0 .. | .siiBr_7 .. | .siiBr_8 .. | .siiBr_9 .. | .siiBr_a .. | .siiBr_b
    .. | .siiBr_c .. | .siiCD .. | .siiCOnly .. | .siiLsADf .. | .siiLsAAf .. => true
  | .xor .. | .or .. | .and .. | .sub .. | .add .. | .shl .. | .shr .. | .sar .. | .muls .. |
    .mulu .. | .mulhs .. | .mulhu .. | .xmov .. | .inc .. | .dec .. | .neg .. | .not .. | .bswap
    .. | .wswap .. | .bsi .. | .wsi .. | .fill | .brk | .syscall | .stu | .fence | .wfence |
    .woi | .xori .. | .ori .. | .andi .. | .subi .. | .addi .. | .shli .. | .shri .. | .sari ..
    | .mulsi .. | .mului .. | .mulhsi .. | .mulhui .. | .li .. | .lit .. | .isub .. | .ishl .. |
    .ishr .. | .isar .. | .fadd .. | .fsub .. | .fmul .. | .ftoi .. | .itof .. | .frecip .. |
    .frsqrt .. | .faddi .. | .fsubi .. | .fmuli .. | .ifsub .. | .beqz .. | .bnez .. | .bltz ..
    | .bgez .. | .bgtz .. | .blez .. | .beq .. | .bne .. | .blts .. | .bges .. | .bltu .. |
    .bgeu .. | .bflt .. | .bfge .. | .bbs .. | .bbc .. | .ldsbA .. | .ldubA .. | .ldshA .. |
    .lduhA .. | .ldwA .. | .stbA .. | .sthA .. | .stwA .. | .ldsbC .. | .ldsbCTpc .. | .ldubC ..
    | .ldubCTpc .. | .ldshC .. | .ldshCTpc .. | .lduhC .. | .lduhCTpc .. | .ldwC .. | .ldwCTpc
    .. | .stbC .. | .stbCTpc .. | .sthC .. | .sthCTpc .. | .stwC .. | .stwCTpc .. | .ldsbD .. |
    .ldsbDTpc .. | .ldubD .. | .ldubDTpc .. | .ldshD .. | .ldshDTpc .. | .lduhD .. | .lduhDTpc
    .. | .ldwD .. | .ldwDTpc .. | .stbD .. | .stbDTpc .. | .sthD .. | .sthDTpc .. | .stwD .. |
    .stwDTpc .. => false

/-- The length in bytes that the table gives the row (R92, R96): 2 or 6. -/
def Instr.length : Instr → Nat
  | .xor .. | .or .. | .and .. | .sub .. | .add .. | .shl .. | .shr .. | .sar .. | .muls .. |
    .mulu .. | .mulhs .. | .mulhu .. | .xmov .. | .inc .. | .dec .. | .neg .. | .not .. | .bswap
    .. | .wswap .. | .bsi .. | .wsi .. | .fill | .brk | .syscall | .stu | .fence | .wfence |
    .woi | .fadd .. | .fsub .. | .fmul .. | .ftoi .. | .itof .. | .frecip .. | .frsqrt .. |
    .ldsbA .. | .ldubA .. | .ldshA .. | .lduhA .. | .ldwA .. | .stbA .. | .sthA .. | .stwA .. |
    .siiXorHole .. | .siiAD0_9 .. | .siiAD0_a .. | .siiAD0_b .. | .siiAD0_c .. | .siiAD0_d .. |
    .siiAD0_e .. | .siiAB0A0_9 .. | .siiAB0A0_a .. | .siiAB0A0_b .. | .siiAB0A0_c .. |
    .siiAB0A0_d .. | .siiAB0A0_e .. => 2
  | .xori .. | .ori .. | .andi .. | .subi .. | .addi .. | .shli .. | .shri .. | .sari .. |
    .mulsi .. | .mului .. | .mulhsi .. | .mulhui .. | .li .. | .lit .. | .isub .. | .ishl .. |
    .ishr .. | .isar .. | .faddi .. | .fsubi .. | .fmuli .. | .ifsub .. | .beqz .. | .bnez .. |
    .bltz .. | .bgez .. | .bgtz .. | .blez .. | .beq .. | .bne .. | .blts .. | .bges .. | .bltu
    .. | .bgeu .. | .bflt .. | .bfge .. | .bbs .. | .bbc .. | .ldsbC .. | .ldsbCTpc .. | .ldubC
    .. | .ldubCTpc .. | .ldshC .. | .ldshCTpc .. | .lduhC .. | .lduhCTpc .. | .ldwC .. |
    .ldwCTpc .. | .stbC .. | .stbCTpc .. | .sthC .. | .sthCTpc .. | .stwC .. | .stwCTpc .. |
    .ldsbD .. | .ldsbDTpc .. | .ldubD .. | .ldubDTpc .. | .ldshD .. | .ldshDTpc .. | .lduhD .. |
    .lduhDTpc .. | .ldwD .. | .ldwDTpc .. | .stbD .. | .stbDTpc .. | .sthD .. | .sthDTpc .. |
    .stwD .. | .stwDTpc .. | .siiBD0_c .. | .siiBD0_d .. | .siiBD0_e .. | .siiBB0_c .. |
    .siiBB0_d .. | .siiBB0_e .. | .siiC_0 .. | .siiC_1 .. | .siiC_2 .. | .siiC_4 .. | .siiC_8 ..
    | .siiC_9 .. | .siiC_a .. | .siiC_b .. | .siiC_c .. | .siiC_e .. | .siiCD0_d .. | .siiCA0_d
    .. | .siiBr0 .. | .siiBr_7 .. | .siiBr_8 .. | .siiBr_9 .. | .siiBr_a .. | .siiBr_b .. |
    .siiBr_c .. | .siiCD .. | .siiCOnly .. | .siiLsADf .. | .siiLsAAf .. => 6

end Sys2Proof
end

