-- ==== Sys2Proof/Decode.lean ====
section
/-!
DEFINITION. Decoding, total on every value of INST, and the encoder written from the same tables
(spec/30_encoding.md R90 to R107, spec/47_reserved.md). A list of halfwords that is too short is
rejected by name; every value of INST selects exactly one row (R100, R108).
-/

namespace Sys2Proof

/-! ## Fields -/

/-- The four bits of a field. -/
def Nib.bits (n : Nib) : BitVec 4 := BitVec.ofNat 4 n.val

/-- The field that four bits hold. -/
def Nib.ofBits (v : BitVec 4) : Nib :=
  match v.toNat with
  | 0 => .x0
  | 1 => .x1
  | 2 => .x2
  | 3 => .x3
  | 4 => .x4
  | 5 => .x5
  | 6 => .x6
  | 7 => .x7
  | 8 => .x8
  | 9 => .x9
  | 10 => .xa
  | 11 => .xb
  | 12 => .xc
  | 13 => .xd
  | 14 => .xe
  | _ => .xf

/-- The register that a field names, `none` for 0xf, which is never a register (R31, R33). -/
def Nib.reg? : Nib → Option Reg
  | .x0 => some .pc
  | .x1 => some (.gp .r1)
  | .x2 => some (.gp .r2)
  | .x3 => some (.gp .r3)
  | .x4 => some (.gp .r4)
  | .x5 => some (.gp .r5)
  | .x6 => some (.gp .r6)
  | .x7 => some (.gp .r7)
  | .x8 => some (.gp .r8)
  | .x9 => some (.gp .r9)
  | .xa => some (.gp .ra)
  | .xb => some (.gp .rb)
  | .xc => some (.gp .rc)
  | .xd => some (.gp .rd)
  | .xe => some (.gp .re)
  | .xf => none

/-- The index of a register (R31). -/
def Reg.nib : Reg → Nib
  | .pc => .x0
  | .gp .r1 => .x1
  | .gp .r2 => .x2
  | .gp .r3 => .x3
  | .gp .r4 => .x4
  | .gp .r5 => .x5
  | .gp .r6 => .x6
  | .gp .r7 => .x7
  | .gp .r8 => .x8
  | .gp .r9 => .x9
  | .gp .ra => .xa
  | .gp .rb => .xb
  | .gp .rc => .xc
  | .gp .rd => .xd
  | .gp .re => .xe

/-- INST from its four fields: C is bits [15:12], B [11:8], A [7:4], D [3:0] (R8, R91). -/
def packInst (c b a d : Nib) : Half := c.bits ++ b.bits ++ a.bits ++ d.bits

/-- FIELD_C of INST (R91). -/
def fieldC (inst : Half) : Nib := .ofBits (inst.extractLsb' 12 4)
/-- FIELD_B of INST (R91). -/
def fieldB (inst : Half) : Nib := .ofBits (inst.extractLsb' 8 4)
/-- FIELD_A of INST (R91). -/
def fieldA (inst : Half) : Nib := .ofBits (inst.extractLsb' 4 4)
/-- FIELD_D of INST (R91). -/
def fieldD (inst : Half) : Nib := .ofBits (inst.extractLsb' 0 4)

/-- The length of an instruction in bytes, told from INST alone: 6 when
`&inst[15:11] | &inst[11:8] | &inst[7:4] | &inst[3:0]`, else 2 (R92). -/
def instLength (inst : Half) : Nat :=
  if inst.extractLsb' 11 5 = BitVec.allOnes 5 ∨ inst.extractLsb' 8 4 = BitVec.allOnes 4
      ∨ inst.extractLsb' 4 4 = BitVec.allOnes 4 ∨ inst.extractLsb' 0 4 = BitVec.allOnes 4
  then 6 else 2

/-- OFFSET of a branch, FIELD_I[31:1] (R98). -/
def offsetOf (fieldI : Word) : PcBits := fieldI.extractLsb' 1 31
/-- R of a branch, FIELD_I[0]: set for a PC-relative jump (R98). -/
def relOf (fieldI : Word) : Bool := fieldI.getLsbD 0
/-- FIELD_I of a branch from OFFSET and R (R98). -/
def branchField (off : PcBits) (rel : Bool) : Word := off ++ BitVec.ofBool rel

/-! ## From INST to its row -/

/-- What INST selects (R100): a 16-bit instruction, a 48-bit instruction that waits for FIELD_I,
or a reserved encoding, whose FIELD_I is never fetched (R65, D29). -/
inductive Decoded where
  | short (i : Instr)
  | long (withFieldI : Word → Instr)
  | reserved (i : Instr)

/-- A branch waiting for FIELD_I (R98). -/
def Decoded.branch (mk : PcBits → Bool → Instr) : Decoded :=
  .long fun i => mk (offsetOf i) (relOf i)

/-- What a group's table answers for C = 0xf, which R100 never asks it: those values of INST
belong to the load/store space of R106. -/
def Decoded.notInGroup (c : Nib) : Decoded := .reserved (.siiCOnly c)

/-- The special cases `0x0nn0` of the XOR opcode (R101). -/
def decodeXorHole : Reg → Decoded
  | .pc => .short .fill
  | .gp .r1 => .short .brk
  | .gp .r2 => .short .syscall
  | .gp .r3 => .short .stu
  | .gp .rd => .short .fence
  | .gp .re => .short .wfence
  | .gp g => .reserved (.siiXorHole (Reg.gp g).nib)

/-- Group CBAD (R101). For C = 9 .. 0xe the precedence of R99 applies: D = 0 is reserved, then
B = A = 0 is reserved, then the one-operand instructions, then the general row. -/
def decodeCBAD (c : Nib) (b a d : Reg) : Decoded :=
  match c with
  | .x0 => if d = .pc ∧ b = a then decodeXorHole b else .short (.xor b a d)
  | .x1 => if b = .pc ∧ a = .pc ∧ d = .pc then .short .woi else .short (.or b a d)
  | .x2 => .short (.and b a d)
  | .x3 => .short (.sub b a d)
  | .x4 => .short (.add b a d)
  | .x5 => .short (.shl b a d)
  | .x6 => .short (.shr b a d)
  | .x7 => .short (.sar b a d)
  | .x8 => match b with
    | .pc => .short (.xmov a d)
    | .gp b => .short (.muls b a d)
  | .x9 => match d, b, a with
    | .pc, b, a => .reserved (.siiAD0_9 b a)
    | .gp d, .pc, .pc => .reserved (.siiAB0A0_9 d)
    | .gp d, .pc, .gp a => .short (.inc a d)
    | .gp d, .gp b, .pc => .short (.dec b d)
    | .gp d, .gp b, .gp a => .short (.mulu b a d)
  | .xa => match d, b, a with
    | .pc, b, a => .reserved (.siiAD0_a b a)
    | .gp d, .pc, .pc => .reserved (.siiAB0A0_a d)
    | .gp d, .pc, .gp a => .short (.neg a d)
    | .gp d, .gp b, .pc => .short (.not b d)
    | .gp d, .gp b, .gp a => .short (.mulhs b a d)
  | .xb => match d, b, a with
    | .pc, b, a => .reserved (.siiAD0_b b a)
    | .gp d, .pc, .pc => .reserved (.siiAB0A0_b d)
    | .gp d, .pc, .gp a => .short (.bswap a d)
    | .gp d, .gp b, .pc => .short (.wswap b d)
    | .gp d, .gp b, .gp a => .short (.mulhu b a d)
  | .xc => match d, b, a with
    | .pc, b, a => .reserved (.siiAD0_c b a)
    | .gp d, .pc, .pc => .reserved (.siiAB0A0_c d)
    | .gp d, .pc, .gp a => .short (.bsi a d)
    | .gp d, .gp b, .pc => .short (.wsi b d)
    | .gp d, .gp b, .gp a => .short (.fadd b a d)
  | .xd => match d, b, a with
    | .pc, b, a => .reserved (.siiAD0_d b a)
    | .gp d, .pc, .pc => .reserved (.siiAB0A0_d d)
    | .gp d, .pc, .gp a => .short (.ftoi a d)
    | .gp d, .gp b, .pc => .short (.itof b d)
    | .gp d, .gp b, .gp a => .short (.fsub b a d)
  | .xe => match d, b, a with
    | .pc, b, a => .reserved (.siiAD0_e b a)
    | .gp d, .pc, .pc => .reserved (.siiAB0A0_e d)
    | .gp d, .pc, .gp a => .short (.frecip a d)
    | .gp d, .gp b, .pc => .short (.frsqrt b d)
    | .gp d, .gp b, .gp a => .short (.fmul b a d)
  | .xf => .notInGroup c

/-- Group CBD, ALU form B (R102). -/
def decodeCBD (c : Nib) (b d : Reg) : Decoded :=
  match c with
  | .x0 => .long (.xori b d)
  | .x1 => .long (.ori b d)
  | .x2 => .long (.andi b d)
  | .x3 => .long (.subi b d)
  | .x4 => .long (.addi b d)
  | .x5 => .long (.shli b d)
  | .x6 => .long (.shri b d)
  | .x7 => .long (.sari b d)
  | .x8 => .long (.mulsi b d)
  | .x9 => .long (.mului b d)
  | .xa => .long (.mulhsi b d)
  | .xb => .long (.mulhui b d)
  | .xc => match d, b with
    | .pc, b => .reserved (.siiBD0_c b)
    | .gp d, .pc => .reserved (.siiBB0_c d)
    | .gp d, .gp b => .long (.faddi b d)
  | .xd => match d, b with
    | .pc, b => .reserved (.siiBD0_d b)
    | .gp d, .pc => .reserved (.siiBB0_d d)
    | .gp d, .gp b => .long (.fsubi b d)
  | .xe => match d, b with
    | .pc, b => .reserved (.siiBD0_e b)
    | .gp d, .pc => .reserved (.siiBB0_e d)
    | .gp d, .gp b => .long (.fmuli b d)
  | .xf => .notInGroup c

/-- Group CAD, ALU form C (R103). -/
def decodeCAD (c : Nib) (a d : Reg) : Decoded :=
  match c with
  | .x0 => .reserved (.siiC_0 a d)
  | .x1 => .reserved (.siiC_1 a d)
  | .x2 => .reserved (.siiC_2 a d)
  | .x3 => .long (.isub a d)
  | .x4 => .reserved (.siiC_4 a d)
  | .x5 => .long (.ishl a d)
  | .x6 => .long (.ishr a d)
  | .x7 => .long (.isar a d)
  | .x8 => .reserved (.siiC_8 a d)
  | .x9 => .reserved (.siiC_9 a d)
  | .xa => .reserved (.siiC_a a d)
  | .xb => .reserved (.siiC_b a d)
  | .xc => .reserved (.siiC_c a d)
  | .xd => match d, a with
    | .pc, a => .reserved (.siiCD0_d a)
    | .gp d, .pc => .reserved (.siiCA0_d d)
    | .gp d, .gp a => .long (.ifsub a d)
  | .xe => .reserved (.siiC_e a d)
  | .xf => .notInGroup c

/-- Group CBA, conditional branches (R104). With C = 0, FIELD_A is a sub-opcode. -/
def decodeCBA (c : Nib) (b a : Reg) : Decoded :=
  match c with
  | .x0 => match a.nib with
    | .x0 => .branch (.beqz b)
    | .x1 => .branch (.bnez b)
    | .x2 => .branch (.bltz b)
    | .x3 => .branch (.bgez b)
    | .x4 => .branch (.bgtz b)
    | .x5 => .branch (.blez b)
    | n => .reserved (.siiBr0 b n)
  | .x1 => .branch (.beq b a)
  | .x2 => .branch (.bne b a)
  | .x3 => .branch (.blts b a)
  | .x4 => .branch (.bges b a)
  | .x5 => .branch (.bltu b a)
  | .x6 => .branch (.bgeu b a)
  | .x7 => .reserved (.siiBr_7 b a)
  | .x8 => .reserved (.siiBr_8 b a)
  | .x9 => .reserved (.siiBr_9 b a)
  | .xa => .reserved (.siiBr_a b a)
  | .xb => .reserved (.siiBr_b b a)
  | .xc => .reserved (.siiBr_c b a)
  | .xd => .branch (.bflt b a)
  | .xe => .branch (.bfge b a)
  | .xf => .notInGroup c

/-- Group CD (R107). -/
def decodeCD (c : Nib) (d : Reg) : Decoded :=
  match c with
  | .x0 => .long (.li d)
  | .x1 => .long (.lit d)
  | .xf => .notInGroup c
  | c => .reserved (.siiCD c d)

/-- Load/store form A, B in 0 .. 7 (R106); 0xf in FIELD_A or FIELD_D is reserved (R330). -/
def decodeLsA (b a d : Nib) (mk : Reg → Reg → Instr) : Decoded :=
  match a.reg?, d.reg? with
  | some a, some d => .short (mk a d)
  | _, none => .reserved (.siiLsADf b a)
  | none, some d => .reserved (.siiLsAAf b d)

/-- Load/store forms C (A = 0xf) and D, B in 8 .. 0xf (R106); D = 0xf names TPC (R301). -/
def decodeLsCD (a d : Nib) (formC : Reg → Word → Instr) (formCTpc : Word → Instr)
    (formD : Reg → Reg → Word → Instr) (formDTpc : Reg → Word → Instr) : Decoded :=
  match a.reg?, d.reg? with
  | none, some d => .long (formC d)
  | none, none => .long formCTpc
  | some a, some d => .long (formD a d)
  | some a, none => .long (formDTpc a)

/-- The load/store space, C = 0xf (R106). -/
def decodeLs (b a d : Nib) : Decoded :=
  match b with
  | .x0 => decodeLsA b a d .ldsbA
  | .x1 => decodeLsA b a d .ldubA
  | .x2 => decodeLsA b a d .ldshA
  | .x3 => decodeLsA b a d .lduhA
  | .x4 => decodeLsA b a d .ldwA
  | .x5 => decodeLsA b a d .stbA
  | .x6 => decodeLsA b a d .sthA
  | .x7 => decodeLsA b a d .stwA
  | .x8 => decodeLsCD a d .ldsbC .ldsbCTpc .ldsbD .ldsbDTpc
  | .x9 => decodeLsCD a d .ldubC .ldubCTpc .ldubD .ldubDTpc
  | .xa => decodeLsCD a d .ldshC .ldshCTpc .ldshD .ldshDTpc
  | .xb => decodeLsCD a d .lduhC .lduhCTpc .lduhD .lduhDTpc
  | .xc => decodeLsCD a d .ldwC .ldwCTpc .ldwD .ldwDTpc
  | .xd => decodeLsCD a d .stbC .stbCTpc .stbD .stbDTpc
  | .xe => decodeLsCD a d .sthC .sthCTpc .sthD .sthDTpc
  | .xf => decodeLsCD a d .stwC .stwCTpc .stwD .stwDTpc

/-- The decode procedure on the four fields (R100). -/
def decodeFields (c b a d : Nib) : Decoded :=
  match c with
  | .xf => decodeLs b a d
  | c => match b.reg?, a.reg?, d.reg? with
    | some b, some a, some d => decodeCBAD c b a d
    | some b, none, some d => decodeCBD c b d
    | none, some a, some d => decodeCAD c a d
    | some b, some a, none => decodeCBA c b a
    | none, some a, none => .branch (.bbs c a)
    | some b, none, none => .branch (.bbc c b)
    | none, none, some d => decodeCD c d
    | none, none, none => .reserved (.siiCOnly c)

/-- What a value of INST selects (R100). -/
def decodeInst (inst : Half) : Decoded :=
  decodeFields (fieldC inst) (fieldB inst) (fieldA inst) (fieldD inst)

/-- The instruction that INST and FIELD_I spell. -/
def Decoded.instr (d : Decoded) (fieldI : Word) : Instr :=
  match d with
  | .short i => i
  | .long f => f fieldI
  | .reserved i => i

/-- The instruction that INST selects, FIELD_I being `fieldI` where INST needs one. -/
def decodeWord (inst : Half) (fieldI : Word) : Instr := (decodeInst inst).instr fieldI

/-! ## Decoding a list of halfwords or bytes -/

/-- Why a list of halfwords does not decode. Every value of INST decodes (R108), so only a list
that ends too early is rejected. -/
inductive DecodeError where
  /-- There is no halfword, or a byte list ends inside it. -/
  | noInst
  /-- INST selects a defined 48-bit instruction and FIELD_I is not all there (R93). -/
  | noFieldI
  deriving DecidableEq, Repr

/-- The first instruction of a list of halfwords, and the halfwords after it. FIELD_I is two
halfwords, the low one first (R65, D2). After a reserved encoding as many halfwords are passed
over as its length says (R92), without being read. -/
def decode (hs : List Half) : Except DecodeError (Instr × List Half) :=
  match hs with
  | [] => .error .noInst
  | inst :: rest =>
    match decodeInst inst with
    | .short i => .ok (i, rest)
    | .reserved i => .ok (i, rest.drop (instLength inst / 2 - 1))
    | .long f =>
      match rest with
      | lo :: hi :: rest => .ok (f (hi ++ lo), rest)
      | _ => .error .noFieldI

/-- The halfword of two bytes, the first at the lower address (R62). -/
def halfOfBytes (o : ByteOrder) (b0 b1 : Byte) : Half :=
  match o with
  | .little => b1 ++ b0
  | .big => b0 ++ b1

/-- The two bytes of a halfword, the one at the lower address first (R62). -/
def bytesOfHalf (o : ByteOrder) (h : Half) : List Byte :=
  match o with
  | .little => [h.extractLsb' 0 8, h.extractLsb' 8 8]
  | .big => [h.extractLsb' 8 8, h.extractLsb' 0 8]

/-- The halfwords of a list of bytes; a last single byte is dropped. -/
def halvesOfBytes (o : ByteOrder) : List Byte → List Half
  | b0 :: b1 :: bs => halfOfBytes o b0 b1 :: halvesOfBytes o bs
  | _ => []

/-- The first instruction of a list of bytes, and the halfwords after it (R93). -/
def decodeBytes (o : ByteOrder) (bs : List Byte) : Except DecodeError (Instr × List Half) :=
  decode (halvesOfBytes o bs)

/-! ## Encoding -/

/-- The fields C, B, A, D of an instruction, from the `encoding` column of the opcode table
(R96, R100 to R107). -/
def Instr.fields : Instr → Nib × Nib × Nib × Nib
  | .xor b a d => (.x0, b.nib, a.nib, d.nib)
  | .or b a d => (.x1, b.nib, a.nib, d.nib)
  | .and b a d => (.x2, b.nib, a.nib, d.nib)
  | .sub b a d => (.x3, b.nib, a.nib, d.nib)
  | .add b a d => (.x4, b.nib, a.nib, d.nib)
  | .shl b a d => (.x5, b.nib, a.nib, d.nib)
  | .shr b a d => (.x6, b.nib, a.nib, d.nib)
  | .sar b a d => (.x7, b.nib, a.nib, d.nib)
  | .muls b a d => (.x8, (Reg.gp b).nib, a.nib, d.nib)
  | .mulu b a d => (.x9, (Reg.gp b).nib, (Reg.gp a).nib, (Reg.gp d).nib)
  | .mulhs b a d => (.xa, (Reg.gp b).nib, (Reg.gp a).nib, (Reg.gp d).nib)
  | .mulhu b a d => (.xb, (Reg.gp b).nib, (Reg.gp a).nib, (Reg.gp d).nib)
  | .xmov a d => (.x8, .x0, a.nib, d.nib)
  | .inc a d => (.x9, .x0, (Reg.gp a).nib, (Reg.gp d).nib)
  | .dec b d => (.x9, (Reg.gp b).nib, .x0, (Reg.gp d).nib)
  | .neg a d => (.xa, .x0, (Reg.gp a).nib, (Reg.gp d).nib)
  | .not b d => (.xa, (Reg.gp b).nib, .x0, (Reg.gp d).nib)
  | .bswap a d => (.xb, .x0, (Reg.gp a).nib, (Reg.gp d).nib)
  | .wswap b d => (.xb, (Reg.gp b).nib, .x0, (Reg.gp d).nib)
  | .bsi a d => (.xc, .x0, (Reg.gp a).nib, (Reg.gp d).nib)
  | .wsi b d => (.xc, (Reg.gp b).nib, .x0, (Reg.gp d).nib)
  | .fill => (.x0, .x0, .x0, .x0)
  | .brk => (.x0, .x1, .x1, .x0)
  | .syscall => (.x0, .x2, .x2, .x0)
  | .stu => (.x0, .x3, .x3, .x0)
  | .fence => (.x0, .xd, .xd, .x0)
  | .wfence => (.x0, .xe, .xe, .x0)
  | .woi => (.x1, .x0, .x0, .x0)
  | .xori b d _ => (.x0, b.nib, .xf, d.nib)
  | .ori b d _ => (.x1, b.nib, .xf, d.nib)
  | .andi b d _ => (.x2, b.nib, .xf, d.nib)
  | .subi b d _ => (.x3, b.nib, .xf, d.nib)
  | .addi b d _ => (.x4, b.nib, .xf, d.nib)
  | .shli b d _ => (.x5, b.nib, .xf, d.nib)
  | .shri b d _ => (.x6, b.nib, .xf, d.nib)
  | .sari b d _ => (.x7, b.nib, .xf, d.nib)
  | .mulsi b d _ => (.x8, b.nib, .xf, d.nib)
  | .mului b d _ => (.x9, b.nib, .xf, d.nib)
  | .mulhsi b d _ => (.xa, b.nib, .xf, d.nib)
  | .mulhui b d _ => (.xb, b.nib, .xf, d.nib)
  | .li d _ => (.x0, .xf, .xf, d.nib)
  | .lit d _ => (.x1, .xf, .xf, d.nib)
  | .isub a d _ => (.x3, .xf, a.nib, d.nib)
  | .ishl a d _ => (.x5, .xf, a.nib, d.nib)
  | .ishr a d _ => (.x6, .xf, a.nib, d.nib)
  | .isar a d _ => (.x7, .xf, a.nib, d.nib)
  | .fadd b a d => (.xc, (Reg.gp b).nib, (Reg.gp a).nib, (Reg.gp d).nib)
  | .fsub b a d => (.xd, (Reg.gp b).nib, (Reg.gp a).nib, (Reg.gp d).nib)
  | .fmul b a d => (.xe, (Reg.gp b).nib, (Reg.gp a).nib, (Reg.gp d).nib)
  | .ftoi a d => (.xd, .x0, (Reg.gp a).nib, (Reg.gp d).nib)
  | .itof b d => (.xd, (Reg.gp b).nib, .x0, (Reg.gp d).nib)
  | .frecip a d => (.xe, .x0, (Reg.gp a).nib, (Reg.gp d).nib)
  | .frsqrt b d => (.xe, (Reg.gp b).nib, .x0, (Reg.gp d).nib)
  | .faddi b d _ => (.xc, (Reg.gp b).nib, .xf, (Reg.gp d).nib)
  | .fsubi b d _ => (.xd, (Reg.gp b).nib, .xf, (Reg.gp d).nib)
  | .fmuli b d _ => (.xe, (Reg.gp b).nib, .xf, (Reg.gp d).nib)
  | .ifsub a d _ => (.xd, .xf, (Reg.gp a).nib, (Reg.gp d).nib)
  | .beqz b _ _ => (.x0, b.nib, .x0, .xf)
  | .bnez b _ _ => (.x0, b.nib, .x1, .xf)
  | .bltz b _ _ => (.x0, b.nib, .x2, .xf)
  | .bgez b _ _ => (.x0, b.nib, .x3, .xf)
  | .bgtz b _ _ => (.x0, b.nib, .x4, .xf)
  | .blez b _ _ => (.x0, b.nib, .x5, .xf)
  | .beq b a _ _ => (.x1, b.nib, a.nib, .xf)
  | .bne b a _ _ => (.x2, b.nib, a.nib, .xf)
  | .blts b a _ _ => (.x3, b.nib, a.nib, .xf)
  | .bges b a _ _ => (.x4, b.nib, a.nib, .xf)
  | .bltu b a _ _ => (.x5, b.nib, a.nib, .xf)
  | .bgeu b a _ _ => (.x6, b.nib, a.nib, .xf)
  | .bflt b a _ _ => (.xd, b.nib, a.nib, .xf)
  | .bfge b a _ _ => (.xe, b.nib, a.nib, .xf)
  | .bbs n a _ _ => (n, .xf, a.nib, .xf)
  | .bbc n b _ _ => (n, b.nib, .xf, .xf)
  | .ldsbA a d => (.xf, .x0, a.nib, d.nib)
  | .ldubA a d => (.xf, .x1, a.nib, d.nib)
  | .ldshA a d => (.xf, .x2, a.nib, d.nib)
  | .lduhA a d => (.xf, .x3, a.nib, d.nib)
  | .ldwA a d => (.xf, .x4, a.nib, d.nib)
  | .stbA a d => (.xf, .x5, a.nib, d.nib)
  | .sthA a d => (.xf, .x6, a.nib, d.nib)
  | .stwA a d => (.xf, .x7, a.nib, d.nib)
  | .ldsbC d _ => (.xf, .x8, .xf, d.nib)
  | .ldsbCTpc _ => (.xf, .x8, .xf, .xf)
  | .ldubC d _ => (.xf, .x9, .xf, d.nib)
  | .ldubCTpc _ => (.xf, .x9, .xf, .xf)
  | .ldshC d _ => (.xf, .xa, .xf, d.nib)
  | .ldshCTpc _ => (.xf, .xa, .xf, .xf)
  | .lduhC d _ => (.xf, .xb, .xf, d.nib)
  | .lduhCTpc _ => (.xf, .xb, .xf, .xf)
  | .ldwC d _ => (.xf, .xc, .xf, d.nib)
  | .ldwCTpc _ => (.xf, .xc, .xf, .xf)
  | .stbC d _ => (.xf, .xd, .xf, d.nib)
  | .stbCTpc _ => (.xf, .xd, .xf, .xf)
  | .sthC d _ => (.xf, .xe, .xf, d.nib)
  | .sthCTpc _ => (.xf, .xe, .xf, .xf)
  | .stwC d _ => (.xf, .xf, .xf, d.nib)
  | .stwCTpc _ => (.xf, .xf, .xf, .xf)
  | .ldsbD a d _ => (.xf, .x8, a.nib, d.nib)
  | .ldsbDTpc a _ => (.xf, .x8, a.nib, .xf)
  | .ldubD a d _ => (.xf, .x9, a.nib, d.nib)
  | .ldubDTpc a _ => (.xf, .x9, a.nib, .xf)
  | .ldshD a d _ => (.xf, .xa, a.nib, d.nib)
  | .ldshDTpc a _ => (.xf, .xa, a.nib, .xf)
  | .lduhD a d _ => (.xf, .xb, a.nib, d.nib)
  | .lduhDTpc a _ => (.xf, .xb, a.nib, .xf)
  | .ldwD a d _ => (.xf, .xc, a.nib, d.nib)
  | .ldwDTpc a _ => (.xf, .xc, a.nib, .xf)
  | .stbD a d _ => (.xf, .xd, a.nib, d.nib)
  | .stbDTpc a _ => (.xf, .xd, a.nib, .xf)
  | .sthD a d _ => (.xf, .xe, a.nib, d.nib)
  | .sthDTpc a _ => (.xf, .xe, a.nib, .xf)
  | .stwD a d _ => (.xf, .xf, a.nib, d.nib)
  | .stwDTpc a _ => (.xf, .xf, a.nib, .xf)
  | .siiXorHole n => (.x0, n, n, .x0)
  | .siiAD0_9 b a => (.x9, b.nib, a.nib, .x0)
  | .siiAD0_a b a => (.xa, b.nib, a.nib, .x0)
  | .siiAD0_b b a => (.xb, b.nib, a.nib, .x0)
  | .siiAD0_c b a => (.xc, b.nib, a.nib, .x0)
  | .siiAD0_d b a => (.xd, b.nib, a.nib, .x0)
  | .siiAD0_e b a => (.xe, b.nib, a.nib, .x0)
  | .siiAB0A0_9 d => (.x9, .x0, .x0, (Reg.gp d).nib)
  | .siiAB0A0_a d => (.xa, .x0, .x0, (Reg.gp d).nib)
  | .siiAB0A0_b d => (.xb, .x0, .x0, (Reg.gp d).nib)
  | .siiAB0A0_c d => (.xc, .x0, .x0, (Reg.gp d).nib)
  | .siiAB0A0_d d => (.xd, .x0, .x0, (Reg.gp d).nib)
  | .siiAB0A0_e d => (.xe, .x0, .x0, (Reg.gp d).nib)
  | .siiBD0_c b => (.xc, b.nib, .xf, .x0)
  | .siiBD0_d b => (.xd, b.nib, .xf, .x0)
  | .siiBD0_e b => (.xe, b.nib, .xf, .x0)
  | .siiBB0_c d => (.xc, .x0, .xf, (Reg.gp d).nib)
  | .siiBB0_d d => (.xd, .x0, .xf, (Reg.gp d).nib)
  | .siiBB0_e d => (.xe, .x0, .xf, (Reg.gp d).nib)
  | .siiC_0 a d => (.x0, .xf, a.nib, d.nib)
  | .siiC_1 a d => (.x1, .xf, a.nib, d.nib)
  | .siiC_2 a d => (.x2, .xf, a.nib, d.nib)
  | .siiC_4 a d => (.x4, .xf, a.nib, d.nib)
  | .siiC_8 a d => (.x8, .xf, a.nib, d.nib)
  | .siiC_9 a d => (.x9, .xf, a.nib, d.nib)
  | .siiC_a a d => (.xa, .xf, a.nib, d.nib)
  | .siiC_b a d => (.xb, .xf, a.nib, d.nib)
  | .siiC_c a d => (.xc, .xf, a.nib, d.nib)
  | .siiC_e a d => (.xe, .xf, a.nib, d.nib)
  | .siiCD0_d a => (.xd, .xf, a.nib, .x0)
  | .siiCA0_d d => (.xd, .xf, .x0, (Reg.gp d).nib)
  | .siiBr0 b a => (.x0, b.nib, a, .xf)
  | .siiBr_7 b a => (.x7, b.nib, a.nib, .xf)
  | .siiBr_8 b a => (.x8, b.nib, a.nib, .xf)
  | .siiBr_9 b a => (.x9, b.nib, a.nib, .xf)
  | .siiBr_a b a => (.xa, b.nib, a.nib, .xf)
  | .siiBr_b b a => (.xb, b.nib, a.nib, .xf)
  | .siiBr_c b a => (.xc, b.nib, a.nib, .xf)
  | .siiCD c d => (c, .xf, .xf, d.nib)
  | .siiCOnly c => (c, .xf, .xf, .xf)
  | .siiLsADf b a => (.xf, b, a, .xf)
  | .siiLsAAf b d => (.xf, b, .xf, d.nib)

/-- INST of an instruction. -/
def encodeInst (i : Instr) : Half :=
  match i.fields with
  | (c, b, a, d) => packInst c b a d

/-- FIELD_I of a 48-bit instruction: VALUE (R97), or OFFSET and R (R98). A 16-bit instruction has
none, and that of a reserved encoding is not part of it (D29): both answer 0. -/
def Instr.fieldI : Instr → Word
  | .xori _ _ imm => imm
  | .ori _ _ imm => imm
  | .andi _ _ imm => imm
  | .subi _ _ imm => imm
  | .addi _ _ imm => imm
  | .shli _ _ imm => imm
  | .shri _ _ imm => imm
  | .sari _ _ imm => imm
  | .mulsi _ _ imm => imm
  | .mului _ _ imm => imm
  | .mulhsi _ _ imm => imm
  | .mulhui _ _ imm => imm
  | .li _ imm => imm
  | .lit _ imm => imm
  | .isub _ _ imm => imm
  | .ishl _ _ imm => imm
  | .ishr _ _ imm => imm
  | .isar _ _ imm => imm
  | .faddi _ _ imm => imm
  | .fsubi _ _ imm => imm
  | .fmuli _ _ imm => imm
  | .ifsub _ _ imm => imm
  | .beqz _ off rel => branchField off rel
  | .bnez _ off rel => branchField off rel
  | .bltz _ off rel => branchField off rel
  | .bgez _ off rel => branchField off rel
  | .bgtz _ off rel => branchField off rel
  | .blez _ off rel => branchField off rel
  | .beq _ _ off rel => branchField off rel
  | .bne _ _ off rel => branchField off rel
  | .blts _ _ off rel => branchField off rel
  | .bges _ _ off rel => branchField off rel
  | .bltu _ _ off rel => branchField off rel
  | .bgeu _ _ off rel => branchField off rel
  | .bflt _ _ off rel => branchField off rel
  | .bfge _ _ off rel => branchField off rel
  | .bbs _ _ off rel => branchField off rel
  | .bbc _ _ off rel => branchField off rel
  | .ldsbC _ imm => imm
  | .ldsbCTpc imm => imm
  | .ldubC _ imm => imm
  | .ldubCTpc imm => imm
  | .ldshC _ imm => imm
  | .ldshCTpc imm => imm
  | .lduhC _ imm => imm
  | .lduhCTpc imm => imm
  | .ldwC _ imm => imm
  | .ldwCTpc imm => imm
  | .stbC _ imm => imm
  | .stbCTpc imm => imm
  | .sthC _ imm => imm
  | .sthCTpc imm => imm
  | .stwC _ imm => imm
  | .stwCTpc imm => imm
  | .ldsbD _ _ imm => imm
  | .ldsbDTpc _ imm => imm
  | .ldubD _ _ imm => imm
  | .ldubDTpc _ imm => imm
  | .ldshD _ _ imm => imm
  | .ldshDTpc _ imm => imm
  | .lduhD _ _ imm => imm
  | .lduhDTpc _ imm => imm
  | .ldwD _ _ imm => imm
  | .ldwDTpc _ imm => imm
  | .stbD _ _ imm => imm
  | .stbDTpc _ imm => imm
  | .sthD _ _ imm => imm
  | .sthDTpc _ imm => imm
  | .stwD _ _ imm => imm
  | .stwDTpc _ imm => imm
  | .xor .. | .or .. | .and .. | .sub .. | .add .. | .shl .. | .shr .. | .sar .. | .muls .. |
    .mulu .. | .mulhs .. | .mulhu .. | .xmov .. | .inc .. | .dec .. | .neg .. | .not .. | .bswap
    .. | .wswap .. | .bsi .. | .wsi .. | .fill | .brk | .syscall | .stu | .fence | .wfence |
    .woi | .fadd .. | .fsub .. | .fmul .. | .ftoi .. | .itof .. | .frecip .. | .frsqrt .. |
    .ldsbA .. | .ldubA .. | .ldshA .. | .lduhA .. | .ldwA .. | .stbA .. | .sthA .. | .stwA .. |
    .siiXorHole .. | .siiAD0_9 .. | .siiAD0_a .. | .siiAD0_b .. | .siiAD0_c .. | .siiAD0_d .. |
    .siiAD0_e .. | .siiAB0A0_9 .. | .siiAB0A0_a .. | .siiAB0A0_b .. | .siiAB0A0_c .. |
    .siiAB0A0_d .. | .siiAB0A0_e .. | .siiBD0_c .. | .siiBD0_d .. | .siiBD0_e .. | .siiBB0_c ..
    | .siiBB0_d .. | .siiBB0_e .. | .siiC_0 .. | .siiC_1 .. | .siiC_2 .. | .siiC_4 .. | .siiC_8
    .. | .siiC_9 .. | .siiC_a .. | .siiC_b .. | .siiC_c .. | .siiC_e .. | .siiCD0_d .. |
    .siiCA0_d .. | .siiBr0 .. | .siiBr_7 .. | .siiBr_8 .. | .siiBr_9 .. | .siiBr_a .. | .siiBr_b
    .. | .siiBr_c .. | .siiCD .. | .siiCOnly .. | .siiLsADf .. | .siiLsAAf .. => 0

/-- The halfwords of an instruction, INST first, then FIELD_I low half first (R65, R90). Their
number is the length that INST gives (R92); a reserved 48-bit encoding is written with a FIELD_I
of zeros. -/
def encode (i : Instr) : List Half :=
  if instLength (encodeInst i) = 6 then
    [encodeInst i, i.fieldI.extractLsb' 0 16, i.fieldI.extractLsb' 16 16]
  else [encodeInst i]

/-! ## The opcode table's words -/

/-- The three halfwords of an instruction whose bits are `w`, bit 0 the least significant bit of
INST, every bit from `nbits` on being 0. -/
def tableHalves (nbits w : Nat) : List Half :=
  let v := w % 2 ^ nbits
  [BitVec.ofNat 16 v, BitVec.ofNat 16 (v / 2 ^ 16), BitVec.ofNat 16 (v / 2 ^ 32)]

/-- The instruction the decoder reads from an instruction whose bits are `w`, numbered as
spec/opcode_table.json numbers them; its halfwords are laid out as the hardware stores them by
default, the first at the lowest address, little-endian (R62, R65). -/
def decodeTableWord (nbits w : Nat) : Option Instr :=
  match decodeBytes .little ((tableHalves nbits w).flatMap (bytesOfHalf .little)) with
  | .ok (i, _) => some i
  | .error _ => none

end Sys2Proof
end

