-- ==== Sys2Proof/Machine/Arith.lean ====
section
/-!
DEFINITION. The arithmetic of the ALU instructions as functions on words (spec/40_alu_form_a.md
R131 to R154): forms A, B and C compute the same functions (R190, R220). Multiplications form
the exact product of integers and narrow at the end (R154).
-/

namespace Sys2Proof.Machine

/-- The number of positions that an amount operand shifts by, `SHIFT_AMOUNT` (R153). An amount of
32 or more shifts every bit out, so `saturate` stops at 32. -/
def shiftAmount (p : ShiftPolicy) (v : Word) : Nat :=
  match p with
  | .lowFive => (v.extractLsb' 0 5).toNat
  | .saturate => min v.toNat 32
  | .unsettled => if v.toNat < 32 then v.toNat else openShiftAmount v

/-- Left shift, zeros entering on the right (R136, R153). -/
def shiftLeft (p : ShiftPolicy) (v amount : Word) : Word := v <<< shiftAmount p amount

/-- Logical right shift, zeros entering on the left (R137, R153). -/
def shiftRight (p : ShiftPolicy) (v amount : Word) : Word := v >>> shiftAmount p amount

/-- Arithmetic right shift, copies of bit 31 entering on the left (R138, R153). -/
def shiftRightSigned (p : ShiftPolicy) (v amount : Word) : Word :=
  v.sshiftRight (shiftAmount p amount)

/-- Lower half of the signed product (R139, R154). -/
def mulSigned (x y : Word) : Word := BitVec.ofInt 32 (x.toInt * y.toInt)

/-- Lower half of the unsigned product (R140, R154). -/
def mulUnsigned (x y : Word) : Word := BitVec.ofNat 32 (x.toNat * y.toNat)

/-- Upper half of the signed product (R141, R154). -/
def mulHighSigned (x y : Word) : Word := BitVec.ofInt 32 (x.toInt * y.toInt / 2 ^ 32)

/-- Upper half of the unsigned product (R142, R154). -/
def mulHighUnsigned (x y : Word) : Word := BitVec.ofNat 32 (x.toNat * y.toNat / 2 ^ 32)

/-- `sext_8`: the low 8 bits, sign-extended (R10, R150). -/
def sext8 (v : Word) : Word := (v.extractLsb' 0 8).signExtend 32
/-- `sext_16`: the low 16 bits, sign-extended (R10, R151). -/
def sext16 (v : Word) : Word := (v.extractLsb' 0 16).signExtend 32
/-- `zext_8`: the low 8 bits, zero-extended (R10). -/
def zext8 (v : Word) : Word := (v.extractLsb' 0 8).setWidth 32
/-- `zext_16`: the low 16 bits, zero-extended (R10). -/
def zext16 (v : Word) : Word := (v.extractLsb' 0 16).setWidth 32

/-- The four bytes reversed (R148). -/
def byteSwap (v : Word) : Word :=
  v.extractLsb' 0 8 ++ v.extractLsb' 8 8 ++ v.extractLsb' 16 8 ++ v.extractLsb' 24 8

/-- The two halfwords exchanged (R149). -/
def wordSwap (v : Word) : Word := v.extractLsb' 0 16 ++ v.extractLsb' 16 16

end Sys2Proof.Machine
end

