-- ==== Sys2Proof/Machine/State.lean ====
section
/-!
DEFINITION. The machine's state as plain data (spec/10_state.md), the reasons a step can stop, and
the state after reset (R48, R411). INVENTORY.md lists every field with its rule and reset value.
-/

namespace Sys2Proof.Machine

/-- The fourteen general registers, 32 bits each (R30). -/
structure Gprs where
  r1 : Word
  r2 : Word
  r3 : Word
  r4 : Word
  r5 : Word
  r6 : Word
  r7 : Word
  r8 : Word
  r9 : Word
  ra : Word
  rb : Word
  rc : Word
  rd : Word
  re : Word
  deriving DecidableEq, Repr

/-- One store in the write queue: its bytes with their physical addresses, performed together
(R70, R74). -/
abbrev PendingStore := List Host.Cell

/-- The state of the core, of the memory behind it, and of the environment's inputs. -/
structure State where
  /-- R1 .. Re (R30). -/
  gprs : Gprs
  /-- Bits [31:1] of TPC, the program counter of TASK mode (R35, R36). -/
  tpc : PcBits
  /-- Bits [31:1] of SPC, the program counter of SCHEDULER mode (R35, R36). -/
  spc : PcBits
  /-- The mode bit (R41). -/
  mode : Mode
  /-- Memory as every observer sees it: the stores performed so far (R60, R74). -/
  mem : Memory
  /-- Stores issued and not yet performed, oldest first (R45, R74). -/
  writeQueue : List PendingStore
  /-- Physical addresses of the bytes this core has stored to since the last FENCE, rising, each
  once (R79; notes/assumptions/14.md). -/
  stale : List Nat
  /-- The levels of the interrupt request at the coming instruction boundaries, the next one
  first; past the end of the list the level is low (R46, R379; notes/assumptions/12.md). -/
  irq : List Bool
  /-- The MODEL's own field: how many of the oldest queued stores are performed at the coming
  boundaries, the next one first; past the end of the list, all of them (R74 (b);
  notes/assumptions/13.md). -/
  drains : List Nat
  /-- The MODEL's own field: the parameters of R6, fixed for a run (notes/assumptions/5.md). -/
  cfg : Config
  deriving DecidableEq, Repr

/-- The exceptions, which abandon the instruction (R373, R376). -/
inductive Exc where
  /-- The reserved-instruction exception (R350). -/
  | sii
  /-- An access that `Translate` refuses; the address is the model's own record (R67). -/
  | memFault (addr : Word)
  deriving DecidableEq, Repr

/-- The model faults of spec/93_implementation_defined.md: points where the spec gives the
hardware no behaviour. None is a state of the hardware (R16, R392). -/
inductive Fault where
  /-- Raised by `State.raise`: SII or a refused access in SCHEDULER mode (R384, D13). Safe: the
  model stops where the hardware may go on. -/
  | exceptionInScheduler (cause : Exc)
  /-- Raised by `State.memRead` and `State.memWrite` under `MisalignedPolicy.modelFault`: a 16- or
  32-bit data access at an address that is not a multiple of its size (R68, D10). Safe. -/
  | misaligned (addr : Word)
  /-- Raised by `State.fetchHalf` when `IFETCH_COHERENT` is false: a fetch of a byte stored to
  since the last FENCE (R79, D20). Safe. -/
  | staleFetch (addr : Word)
  deriving DecidableEq, Repr

/-- Why a step has no meaning. -/
inductive Refusal where
  /-- An instruction whose meaning is not written; raised by an arm of `exec` only, and by none of
  this model's arms. Safe. -/
  | notModelled (mnemonic : String)
  deriving DecidableEq, Repr

/-- The outcome of an instruction or of a step. -/
abbrev Result := Host.Outcome State Fault Refusal

/-- The machine right after reset (R48, R411): SCHEDULER mode, SPC at `RESET_SPC`, no store
pending, the parameters at the spec's defaults. R1 .. Re and TPC, which the spec leaves
unspecified, hold 0: DESIGN CHOICE, unsafe (notes/assumptions/1.md, notes/assumptions/2.md).
Memory lists nothing (notes/assumptions/4.md). The interrupt request, which the spec leaves to the
environment (R48, R411), is low at every boundary of a run from here, `irq` being empty: DESIGN
CHOICE, unsafe (notes/assumptions/12.md). When queued stores are performed, which the spec leaves
open (R74 (b)), is every one of them at the next boundary, `drains` being empty: DESIGN CHOICE,
unsafe (notes/assumptions/13.md). -/
def State.reset : State where
  gprs := ⟨0, 0, 0, 0, 0, 0, 0, 0, 0, 0, 0, 0, 0, 0⟩
  tpc := 0
  spc := resetSpc
  mode := .scheduler
  mem := []
  writeQueue := []
  stale := []
  irq := []
  drains := []
  cfg := .default

end Sys2Proof.Machine
end

