-- ==== Sys2Proof/Machine/Ops.lean ====
section
/-!
DEFINITION. The named operations over registers, program counters and memory, the entry to
SCHEDULER mode and the return from it (spec/10_state.md, spec/20_memory.md,
spec/60_exceptions.md). Every instruction's meaning is written over these.
-/

namespace Sys2Proof.Machine

/-! ## Program counters and the mode -/

/-- The address a program counter holds: bit 0 reads as 0 (R35). -/
def pcAddr (p : PcBits) : Word := p ++ 0#1

/-- What a program counter stores of a value written to it: bit 0 is dropped (R35). -/
def pcOf (v : Word) : PcBits := v.extractLsb' 1 31

/-- TPC <- {v[31:1], 0} (R35). -/
def State.setTpc (v : Word) (s : State) : State := { s with tpc := pcOf v }

/-- SPC <- {v[31:1], 0} (R35, D27). -/
def State.setSpc (v : Word) (s : State) : State := { s with spc := pcOf v }

/-- The mode bit (R41). -/
def State.setMode (m : Mode) (s : State) : State := { s with mode := m }

/-- `CurPC`: TPC in TASK mode, SPC in SCHEDULER mode (R11, R36). During an instruction it is
`pc`, the instruction's own address. -/
def State.curPc (s : State) : Word :=
  match s.mode with
  | .task => pcAddr s.tpc
  | .scheduler => pcAddr s.spc

/-- `CurPC <- {v[31:1], 0}`, a write of the current mode's program counter (R12, R35). -/
def State.jump (v : Word) (s : State) : State :=
  match s.mode with
  | .task => s.setTpc v
  | .scheduler => s.setSpc v

/-- The sequential advance `CurPC <- (pc + len) mod 2^32` (R14, R38). -/
def State.advance (len : Word) (s : State) : State := s.jump (s.curPc + len)

/-! ## General registers -/

/-- The value of a general register (R12). -/
def Gprs.read (g : Gprs) : Gpr → Word
  | .r1 => g.r1
  | .r2 => g.r2
  | .r3 => g.r3
  | .r4 => g.r4
  | .r5 => g.r5
  | .r6 => g.r6
  | .r7 => g.r7
  | .r8 => g.r8
  | .r9 => g.r9
  | .ra => g.ra
  | .rb => g.rb
  | .rc => g.rc
  | .rd => g.rd
  | .re => g.re

/-- The registers with one of them set (R12). -/
def Gprs.write (g : Gprs) (r : Gpr) (v : Word) : Gprs :=
  match r with
  | .r1 => { g with r1 := v }
  | .r2 => { g with r2 := v }
  | .r3 => { g with r3 := v }
  | .r4 => { g with r4 := v }
  | .r5 => { g with r5 := v }
  | .r6 => { g with r6 := v }
  | .r7 => { g with r7 := v }
  | .r8 => { g with r8 := v }
  | .r9 => { g with r9 := v }
  | .ra => { g with ra := v }
  | .rb => { g with rb := v }
  | .rc => { g with rc := v }
  | .rd => { g with rd := v }
  | .re => { g with re := v }

/-- R<i> <- v (R12). -/
def State.setGpr (r : Gpr) (v : Word) (s : State) : State :=
  { s with gprs := s.gprs.write r v }

/-! ## Events -/

/-- `enter_scheduler`, the entry of FILL, BREAK and SYSCALL at an instruction of `len` bytes
(R375): the current program counter advances, and the mode becomes SCHEDULER. In TASK mode that
leaves TPC at the next instruction and execution goes on at SPC; in SCHEDULER mode it is the
advance alone (D12). -/
def State.enterScheduler (len : Word) (s : State) : State := (s.advance len).setMode .scheduler

/-- Exception entry (R376). In TASK mode TPC keeps the address of the instruction, the mode
becomes SCHEDULER and nothing else changes; in SCHEDULER mode there is no defined behaviour
(R384). `s` is the state before the abandoned instruction. -/
def State.raise (e : Exc) (s : State) : Result :=
  match s.mode with
  | .task => .next (s.setMode .scheduler)
  | .scheduler => .fault (.exceptionInScheduler e)

/-- Taking an interrupt in TASK mode: the mode becomes SCHEDULER and nothing else changes
(R380). -/
def State.takeInterrupt (s : State) : State := s.setMode .scheduler

/-- The return of STU (R173, R383): the current program counter advances, and the mode becomes
TASK. In SCHEDULER mode that leaves SPC after the STU and execution goes on at TPC; in TASK mode
it is the advance alone, and SPC is not touched (D14). -/
def State.returnToTask (len : Word) (s : State) : State := (s.advance len).setMode .task

/-! ## Memory -/

/-- What an address that memory does not list reads as: 0x00; DESIGN CHOICE, unsafe
(notes/assumptions/4.md). -/
def unlistedByte : Byte := 0

/-- The byte at an address. -/
def Memory.read : Memory → Nat → Byte
  | [], _ => unlistedByte
  | c :: m, a => if c.1 = a then c.2 else Memory.read m a

/-- Memory without an entry for an address. -/
def Memory.erase (m : Memory) (a : Nat) : Memory := m.filter fun c => c.1 ≠ a

/-- Memory with one more entry, before the first entry of a higher address. -/
def Memory.insert : Memory → Host.Cell → Memory
  | [], c => [c]
  | d :: m, c => if c.1 < d.1 then c :: d :: m else d :: Memory.insert m c

/-- Memory with the byte at an address set, in canonical form: a byte equal to what an unlisted
address reads as is not listed. -/
def Memory.write (m : Memory) (a : Nat) (v : Byte) : Memory :=
  if v = unlistedByte then Memory.erase m a else Memory.insert (Memory.erase m a) (a, v)

/-- The canonical form: addresses strictly rising and below 2^32, and no entry equal to what an
unlisted address reads as. -/
def Memory.wf : Memory → Bool
  | [] => true
  | c :: m =>
    decide (c.1 < 2 ^ 32) && decide (c.2 ≠ unlistedByte)
      && (match m with
          | [] => true
          | d :: _ => decide (c.1 < d.1))
      && Memory.wf m

/-- The memory after one store is performed, all of its bytes together (R70, R74). -/
def Memory.perform (m : Memory) (st : PendingStore) : Memory :=
  st.foldl (fun m c => Memory.write m c.1 c.2) m

/-- Memory as the core itself sees it: every store it has issued, in program order, whether or
not it has left the write queue (R74 (a), R75). -/
def State.view (s : State) : Memory := s.writeQueue.foldl Memory.perform s.mem

/-- The byte at a physical address as the core sees it (R74 (a)). -/
def State.readByte (s : State) (a : Nat) : Byte := Memory.read s.view a

/-- Performs the `k` oldest stores of the write queue, in program order (R74 (b)). -/
def State.drain (k : Nat) (s : State) : State :=
  { s with
    mem := (s.writeQueue.take k).foldl Memory.perform s.mem
    writeQueue := s.writeQueue.drop k }

/-- Performs every store of the write queue (R76, R77). -/
def State.flush (s : State) : State := { s with mem := s.view, writeQueue := [] }

/-! ## Widths, byte order and alignment -/

/-- The offsets of the bytes of an access (R63, R64). -/
def sizeOffsets : Size → List Word
  | .byte => [0]
  | .half => [0, 1]
  | .word => [0, 1, 2, 3]

/-- The number of bytes of an access (R69). -/
def sizeBytes : Size → Nat
  | .byte => 1
  | .half => 2
  | .word => 4

/-- The physical addresses of the bytes of an access, modulo 2^32 (R63, R64, R73). -/
def accessAddrs (paddr : Word) (n : Size) : List Nat :=
  (sizeOffsets n).map fun k => (paddr + k).toNat

/-- Bytes by rising address from bytes by rising significance, or back (R62). -/
def arrange {α : Type} (o : ByteOrder) (bs : List α) : List α :=
  match o with
  | .little => bs
  | .big => bs.reverse

/-- The value of a list of bytes, the least significant first. -/
def assemble (bs : List Byte) : Word :=
  bs.foldr (fun b acc => (acc <<< 8) ||| b.setWidth 32) 0

/-- The low bytes of a value, the least significant first (R64, D35). -/
def splitBytes (n : Size) (v : Word) : List Byte :=
  match n with
  | .byte => [v.extractLsb' 0 8]
  | .half => [v.extractLsb' 0 8, v.extractLsb' 8 8]
  | .word => [v.extractLsb' 0 8, v.extractLsb' 8 8, v.extractLsb' 16 8, v.extractLsb' 24 8]

/-- Whether an address is a multiple of the access's size (R63, R64, R68). -/
def isAligned (addr : Word) (n : Size) : Bool := addr.toNat % sizeBytes n == 0

/-! ## The MMU -/

/-- Whether an MMU rule decides an access. -/
def ruleCovers (m : Mode) (k : AccessKind) (addr : Word) (r : MmuRule) : Bool :=
  r.mode == m && r.kind == k && decide (r.lo ≤ addr) && decide (addr ≤ r.hi)

/-- `Translate` of an MMU given as rules: the first that covers the access decides; the identity
where none does (R66, D17). -/
def translateRules (l : List MmuRule) (m : Mode) (k : AccessKind) (addr : Word) : Translation :=
  match l.find? (ruleCovers m k addr) with
  | none => .permitted addr
  | some r =>
    match r.target with
    | none => .refused
    | some base => .permitted (base + (addr - r.lo))

/-- `Translate(mode, addr, n, kind)` in the current mode (R66, R81). -/
def State.translate (s : State) (addr : Word) (n : Size) (k : AccessKind) : Translation :=
  match s.cfg.mmu with
  | .rules l => translateRules l s.mode k addr
  | .tables => pageWalk s.mem s.view s.mode addr n k

/-! ## Accesses -/

/-- Why an access gives no value: it raises an exception, or the model faults. -/
inductive AccessStop where
  | raises (e : Exc)
  | faults (f : Fault)
  deriving DecidableEq, Repr

/-- What an access that is stopped does to the instruction: it is abandoned, with no register and
no memory written (R16, R300). -/
def State.stop (e : AccessStop) (s : State) : Result :=
  match e with
  | .raises e => s.raise e
  | .faults f => .fault f

/-- The common steps of a data access: the alignment check of R68, then `Translate` (R63, R64,
R382 step 6). -/
def State.dataAddr (s : State) (addr : Word) (n : Size) (k : AccessKind) :
    Except AccessStop Word :=
  if !isAligned addr n && s.cfg.misaligned == .modelFault then
    .error (.faults (.misaligned addr))
  else
    match s.translate addr n k with
    | .refused => .error (.raises (.memFault addr))
    | .permitted paddr => .ok paddr

/-- The value of `n` bytes at a physical address as the core sees them (R62, R63). -/
def State.loadBytes (s : State) (paddr : Word) (n : Size) : Word :=
  assemble (arrange s.cfg.byteOrder ((accessAddrs paddr n).map s.readByte))

/-- `MemRead(addr, n)` (R15, R63), as a word whose upper bits are 0. -/
def State.memRead (s : State) (addr : Word) (n : Size) : Except AccessStop Word :=
  match s.dataAddr addr n .read with
  | .error e => .error e
  | .ok paddr => .ok (s.loadBytes paddr n)

/-- The bytes that a store of the low `8n` bits of `v` writes, with their addresses (R62, R64). -/
def storeCells (o : ByteOrder) (paddr : Word) (n : Size) (v : Word) : PendingStore :=
  (accessAddrs paddr n).zip (arrange o (splitBytes n v))

/-- A rising list of addresses with one more address in it. -/
def insertAddr (l : List Nat) (a : Nat) : List Nat :=
  match l with
  | [] => [a]
  | b :: l => if a < b then a :: b :: l else if a = b then b :: l else b :: insertAddr l a

/-- Issues a store: it enters the write queue behind the earlier ones (R45, R74), and its bytes
are stale for instruction fetch until a FENCE (R79). -/
def State.storeBytes (paddr : Word) (n : Size) (v : Word) (s : State) : State :=
  { s with
    writeQueue := s.writeQueue ++ [storeCells s.cfg.byteOrder paddr n v]
    stale := (accessAddrs paddr n).foldl insertAddr s.stale }

/-- `MemWrite(addr, n, v)` (R15, R64). -/
def State.memWrite (s : State) (addr : Word) (n : Size) (v : Word) : Except AccessStop State :=
  match s.dataAddr addr n .write with
  | .error e => .error e
  | .ok paddr => .ok (s.storeBytes paddr n v)

/-- FENCE's effect on memory (R76): every earlier store is performed, and later fetches see it
(R79). Earlier loads have returned their values already: a load is one step. -/
def State.fence (s : State) : State := { s.flush with stale := [] }

/-! ## Instruction fetch -/

/-- `Fetch(a)` (R15, R65): the halfword at an even address, after `Translate` and, unless
`IFETCH_COHERENT`, after the check that this core has not stored to its bytes since the last
FENCE (R79). -/
def State.fetchHalf (s : State) (a : Word) : Except AccessStop Half :=
  match s.translate a .half .fetch with
  | .refused => .error (.raises (.memFault a))
  | .permitted paddr =>
    if !s.cfg.ifetchCoherent && (accessAddrs paddr .half).any (fun b => s.stale.contains b) then
      .error (.faults (.staleFetch a))
    else
      .ok (halfOfBytes s.cfg.byteOrder (s.readByte paddr.toNat) (s.readByte (paddr + 1).toNat))

/-- The instruction at `CurPC`: INST, then, for a defined 48-bit instruction only, the halfwords
at `pc + 2` and `pc + 4` in that order (R65, R382 steps 2 to 4, R392). -/
def State.fetchInstr (s : State) : Except AccessStop Instr :=
  match s.fetchHalf s.curPc with
  | .error e => .error e
  | .ok inst =>
    match decodeInst inst with
    | .short i => .ok i
    | .reserved i => .ok i
    | .long f =>
      match s.fetchHalf (s.curPc + 2) with
      | .error e => .error e
      | .ok lo =>
        match s.fetchHalf (s.curPc + 4) with
        | .error e => .error e
        | .ok hi => .ok (f (hi ++ lo))

/-! ## The instruction boundary -/

/-- The level of the interrupt request at this boundary (R379, R380). -/
def State.irqLevel (s : State) : Bool := s.irq.headD false

/-- How many of the oldest queued stores are performed at this boundary (R74 (b)). -/
def State.drainCount (s : State) : Nat := s.drains.headD s.writeQueue.length

/-- The environment's part of an instruction boundary: this boundary's interrupt level and drain
choice are used up, and that many stores leave the write queue. The core's registers and its view
of memory stay as they are. -/
def State.boundary (s : State) : State :=
  { s.drain s.drainCount with
    irq := s.irq.tail
    drains := s.drains.tail }

/-- Whether the interrupt is taken at this boundary: in TASK mode, when the level is high
(R380, R381). -/
def State.interrupted (s : State) : Bool := s.mode == .task && s.irqLevel

/-! ## Loading a program from outside -/

/-- The halfwords stored from a physical address on, as the hardware stores them. -/
def Memory.writeHalves (o : ByteOrder) (m : Memory) : Word → List Half → Memory
  | _, [] => m
  | a, h :: hs =>
    Memory.writeHalves o
      (Memory.perform m (List.zip (accessAddrs a .half) (bytesOfHalf o h))) (a + 2) hs

/-- The state with halfwords in memory at `CurPC`, where the next step will fetch and run them
(notes/assumptions/17.md): every queued store performed first, the written bytes not stale, an
identity MMU, and no interrupt request at this boundary. -/
def State.loadAtPc (s : State) (hs : List Half) : State :=
  { s.flush with
    mem := Memory.writeHalves s.cfg.byteOrder s.view s.curPc hs
    stale := s.stale.filter fun b => decide (¬ (BitVec.ofNat 32 b - s.curPc).toNat < 2 * hs.length)
    irq := match s.irq with
      | true :: l => false :: l
      | l => l
    cfg := { s.cfg with mmu := .identity } }

end Sys2Proof.Machine
end

