-- ==== Sys2Proof/Machine/Operands.lean ====
section
/-!
DEFINITION. The operand forms: the register accessors `x[]`, `xt[]` and `xd[]` with the end of the
instruction that goes with a write (spec/00_scope.md R12, R13, R14), the effective addresses of
loads and stores (spec/46_load_store.md R302 to R304) and the branch target (spec/45_branches.md
R260), with the shared shapes of the meanings written over them.
-/

namespace Sys2Proof.Machine

/-- A read of register index 0: `pc + PC_READ_BIAS`, whose bit 0 is always 0 (R12, R37). -/
def State.pcRead (s : State) : Word := pcAddr (pcOf (s.curPc + s.cfg.pcReadBias))

/-- A read of `x[i]` (R12). -/
def State.readX (s : State) : Reg → Word
  | .pc => s.pcRead
  | .gp g => s.gprs.read g

/-- `x[i] <- v` by an instruction of `len` bytes, and its end: a write of index 0 is a jump, any
other is followed by the sequential advance (R12, R14). -/
def State.writeX (len : Word) (d : Reg) (v : Word) (s : State) : State :=
  match d with
  | .pc => s.jump v
  | .gp g => (s.setGpr g v).advance len

/-- A read of TPC by name, `xt[0]` or `xd[0xf]`: in TASK mode TPC is the current program counter
and reads as index 0 does (R13). -/
def State.readTpc (s : State) : Word :=
  match s.mode with
  | .task => s.pcRead
  | .scheduler => pcAddr s.tpc

/-- A write of TPC by name and the end of the instruction: in TASK mode a jump; in SCHEDULER mode
SPC still advances (R13, R14). -/
def State.writeTpc (len v : Word) (s : State) : State :=
  match s.mode with
  | .task => s.jump v
  | .scheduler => (s.setTpc v).advance len

/-- A read of `xt[i]` (R13). -/
def State.readXt (s : State) : Reg → Word
  | .pc => s.readTpc
  | .gp g => s.gprs.read g

/-- `xt[i] <- v` and the end of the instruction (R13, R14). -/
def State.writeXt (len : Word) (d : Reg) (v : Word) (s : State) : State :=
  match d with
  | .pc => s.writeTpc len v
  | .gp g => (s.setGpr g v).advance len

/-! ## ALU shapes -/

/-- ALU form A: `x[D] <- f(x[B], x[A])`, 2 bytes (R130). Both reads come before the write. -/
def aluA (f : Word → Word → Word) (b a d : Reg) (s : State) : Result :=
  .next (s.writeX 2 d (f (s.readX b) (s.readX a)))

/-- A one-operand instruction of ALU form A: `x[D] <- f(x[r])`, 2 bytes (R130). -/
def aluA1 (f : Word → Word) (r d : Reg) (s : State) : Result :=
  .next (s.writeX 2 d (f (s.readX r)))

/-- ALU form B: `x[D] <- f(x[B], VALUE)`, 6 bytes (R190). -/
def aluB (f : Word → Word → Word) (b d : Reg) (imm : Word) (s : State) : Result :=
  .next (s.writeX 6 d (f (s.readX b) imm))

/-- ALU form C: `x[D] <- f(VALUE, x[A])`, 6 bytes (R220). -/
def aluC (f : Word → Word → Word) (a d : Reg) (imm : Word) (s : State) : Result :=
  .next (s.writeX 6 d (f imm (s.readX a)))

/-! ## Branches -/

/-- The base of a relative branch: the value that index 0 reads, which with `PC_READ_BIAS` 0 is
`pc`, the address of the branch (R260, D4). V-PA3 keeps `pc` under another bias;
notes/assumptions/7.md. -/
def State.branchBase (s : State) : Word :=
  match s.cfg.branchBase with
  | .asRead => s.pcRead
  | .ownAddress => s.curPc

/-- The target of a branch: `off` is OFFSET with bit 0 clear, in bytes; absolute when R = 0,
added to the base when R = 1 (R98, R260). -/
def State.branchTarget (off : PcBits) (rel : Bool) (s : State) : Word :=
  if rel then s.branchBase + pcAddr off else pcAddr off

/-- A branch: the target if the condition holds, else the next instruction (R260). -/
def branch (cond : Bool) (off : PcBits) (rel : Bool) (s : State) : Result :=
  .next (if cond then s.jump (s.branchTarget off rel) else s.advance 6)

/-! ## Loads and stores -/

/-- Effective address, form A: `x[A]` (R302). -/
def State.eaA (s : State) (a : Reg) : Word := s.readX a

/-- Effective address, form C: VALUE (R303). -/
def State.eaC (_s : State) (imm : Word) : Word := imm

/-- Effective address, form D: `(x[A] + VALUE) mod 2^32` (R304). -/
def State.eaD (s : State) (a : Reg) (imm : Word) : Word := s.readX a + imm

/-- A load into `x[D]`: `ext` extends the value that was read (R300). -/
def load (len : Word) (n : Size) (ext : Word → Word) (ea : Word) (d : Reg) (s : State) : Result :=
  match s.memRead ea n with
  | .error e => s.stop e
  | .ok v => .next (s.writeX len d (ext v))

/-- A load into TPC, `xd[0xf]` (R301). -/
def loadTpc (len : Word) (n : Size) (ext : Word → Word) (ea : Word) (s : State) : Result :=
  match s.memRead ea n with
  | .error e => s.stop e
  | .ok v => .next (s.writeTpc len (ext v))

/-- A store of a data register's value (R300). -/
def store (len : Word) (n : Size) (ea v : Word) (s : State) : Result :=
  match s.memWrite ea n v with
  | .error e => s.stop e
  | .ok s' => .next (s'.advance len)

end Sys2Proof.Machine
end

