-- ==== Sys2Proof/Machine/AluA.lean ====
section
/-!
DEFINITION. ALU form A, the 16-bit integer operations (spec/40_alu_form_a.md). Index 0 in B or A reads
the program counter, index 0 in D makes the instruction a jump (R130); no instruction here
accesses memory, changes mode or sets flags.
-/

namespace Sys2Proof.Machine

/-- XOR: `R_D = R_B ^ R_A` (R131). -/
def execXor (b a d : Reg) (s : State) : Result :=
  aluA (· ^^^ ·) b a d s

/-- OR: `R_D = R_B | R_A` (R132). -/
def execOr (b a d : Reg) (s : State) : Result :=
  aluA (· ||| ·) b a d s

/-- AND: `R_D = R_B & R_A` (R133). -/
def execAnd (b a d : Reg) (s : State) : Result :=
  aluA (· &&& ·) b a d s

/-- SUB: `R_D = R_B - R_A` (R134). -/
def execSub (b a d : Reg) (s : State) : Result :=
  aluA (· - ·) b a d s

/-- ADD: `R_D = R_B + R_A` (R135). -/
def execAdd (b a d : Reg) (s : State) : Result :=
  aluA (· + ·) b a d s

/-- SHL: `R_D = R_B << R_A` (R136). -/
def execShl (b a d : Reg) (s : State) : Result :=
  aluA (shiftLeft s.cfg.shiftPolicy) b a d s

/-- SHR: `R_D = R_B >> R_A` (R137). -/
def execShr (b a d : Reg) (s : State) : Result :=
  aluA (shiftRight s.cfg.shiftPolicy) b a d s

/-- SAR: `SR_D = SR_B >> R_A` (R138). -/
def execSar (b a d : Reg) (s : State) : Result :=
  aluA (shiftRightSigned s.cfg.shiftPolicy) b a d s

/-- MULS: `SR_D = SR_B * SR_A`, lower half (R139). -/
def execMuls (b : Gpr) (a d : Reg) (s : State) : Result :=
  aluA mulSigned (.gp b) a d s

/-- MULU: `R_D = R_B * R_A`, lower half (R140). -/
def execMulu (b a d : Gpr) (s : State) : Result :=
  aluA mulUnsigned (.gp b) (.gp a) (.gp d) s

/-- MULHS: `SR_D = UPPER SR_B * SR_A` (R141). -/
def execMulhs (b a d : Gpr) (s : State) : Result :=
  aluA mulHighSigned (.gp b) (.gp a) (.gp d) s

/-- MULHU: `R_D = UPPER R_B * R_A`, unsigned by spec/90_conflicts.md C5 (R142). -/
def execMulhu (b a d : Gpr) (s : State) : Result :=
  aluA mulHighUnsigned (.gp b) (.gp a) (.gp d) s

/-- XMOV: `xt[D] <- xt[A]`, index 0 naming TPC (R146). -/
def execXmov (a d : Reg) (s : State) : Result :=
  .next (s.writeXt 2 d (s.readXt a))

/-- INC: `R_D = R_A + 1` (R143). -/
def execInc (a d : Gpr) (s : State) : Result :=
  aluA1 (· + 1) (.gp a) (.gp d) s

/-- DEC: `R_D = R_B - 1` (R144). -/
def execDec (b d : Gpr) (s : State) : Result :=
  aluA1 (· - 1) (.gp b) (.gp d) s

/-- NEG: `R_D = -R_A` (R145). -/
def execNeg (a d : Gpr) (s : State) : Result :=
  aluA1 (0 - ·) (.gp a) (.gp d) s

/-- NOT: `R_D = ~R_B` (R147). -/
def execNot (b d : Gpr) (s : State) : Result :=
  aluA1 (~~~ ·) (.gp b) (.gp d) s

/-- BSWAP (R148). -/
def execBswap (a d : Gpr) (s : State) : Result :=
  aluA1 byteSwap (.gp a) (.gp d) s

/-- WSWAP (R149). -/
def execWswap (b d : Gpr) (s : State) : Result :=
  aluA1 wordSwap (.gp b) (.gp d) s

/-- BSI: the low 8 bits sign-extended, by spec/90_conflicts.md C6 (R150). -/
def execBsi (a d : Gpr) (s : State) : Result :=
  aluA1 sext8 (.gp a) (.gp d) s

/-- WSI: the low 16 bits sign-extended, by spec/90_conflicts.md C6 (R151). -/
def execWsi (b d : Gpr) (s : State) : Result :=
  aluA1 sext16 (.gp b) (.gp d) s

end Sys2Proof.Machine
end

