-- ==== Sys2Proof/Machine/AluB.lean ====
section
/-!
DEFINITION. ALU form B, a register and a 32-bit immediate, and the two load-immediate instructions
(spec/42_alu_form_b.md).
-/

namespace Sys2Proof.Machine

/-- XORI: `R_D = R_B ^ VALUE` (R191). -/
def execXori (b d : Reg) (imm : Word) (s : State) : Result :=
  aluB (· ^^^ ·) b d imm s

/-- ORI: `R_D = R_B | VALUE` (R193). -/
def execOri (b d : Reg) (imm : Word) (s : State) : Result :=
  aluB (· ||| ·) b d imm s

/-- ANDI: `R_D = R_B & VALUE` (R195). -/
def execAndi (b d : Reg) (imm : Word) (s : State) : Result :=
  aluB (· &&& ·) b d imm s

/-- SUBI: `R_D = R_B - VALUE` (R196). -/
def execSubi (b d : Reg) (imm : Word) (s : State) : Result :=
  aluB (· - ·) b d imm s

/-- ADDI: `R_D = R_B + VALUE` (R197). -/
def execAddi (b d : Reg) (imm : Word) (s : State) : Result :=
  aluB (· + ·) b d imm s

/-- SHLI: `R_D = R_B << VALUE` (R198). -/
def execShli (b d : Reg) (imm : Word) (s : State) : Result :=
  aluB (shiftLeft s.cfg.shiftPolicy) b d imm s

/-- SHRI: `R_D = R_B >> VALUE` (R199). -/
def execShri (b d : Reg) (imm : Word) (s : State) : Result :=
  aluB (shiftRight s.cfg.shiftPolicy) b d imm s

/-- SARI: `SR_D = SR_B >> VALUE` (R200). -/
def execSari (b d : Reg) (imm : Word) (s : State) : Result :=
  aluB (shiftRightSigned s.cfg.shiftPolicy) b d imm s

/-- MULSI: `R_D = SR_B * VALUE`, lower half (R201). -/
def execMulsi (b d : Reg) (imm : Word) (s : State) : Result :=
  aluB mulSigned b d imm s

/-- MULUI: `R_D = R_B * VALUE`, lower half (R202). -/
def execMului (b d : Reg) (imm : Word) (s : State) : Result :=
  aluB mulUnsigned b d imm s

/-- MULHSI: `R_D = UPPER SR_B * VALUE`, VALUE signed (D26) (R203). -/
def execMulhsi (b d : Reg) (imm : Word) (s : State) : Result :=
  aluB mulHighSigned b d imm s

/-- MULHUI: `R_D = UPPER R_B * VALUE`, unsigned (R204). -/
def execMulhui (b d : Reg) (imm : Word) (s : State) : Result :=
  aluB mulHighUnsigned b d imm s

/-- LI: `R_D = VALUE`; index 0 is the current mode's PC (R192). -/
def execLi (d : Reg) (imm : Word) (s : State) : Result :=
  .next (s.writeX 6 d imm)

/-- LIT: `R_D = VALUE`; index 0 is TPC (R194). -/
def execLit (d : Reg) (imm : Word) (s : State) : Result :=
  .next (s.writeXt 6 d imm)

end Sys2Proof.Machine
end

