-- ==== Sys2Proof/Machine/AluC.lean ====
section
/-!
DEFINITION. ALU form C, a 32-bit immediate as the left operand (spec/43_alu_form_c.md).
-/

namespace Sys2Proof.Machine

/-- ISUB: `R_D = VALUE - R_A` (R221). -/
def execIsub (a d : Reg) (imm : Word) (s : State) : Result :=
  aluC (· - ·) a d imm s

/-- ISHL: `R_D = VALUE << R_A`, opcode 5 by spec/90_conflicts.md C8 (R222). -/
def execIshl (a d : Reg) (imm : Word) (s : State) : Result :=
  aluC (shiftLeft s.cfg.shiftPolicy) a d imm s

/-- ISHR: `R_D = VALUE >> R_A`, opcode 6 by spec/90_conflicts.md C8 (R223). -/
def execIshr (a d : Reg) (imm : Word) (s : State) : Result :=
  aluC (shiftRight s.cfg.shiftPolicy) a d imm s

/-- ISAR: `SR_D = VALUE >> R_A` (R224). -/
def execIsar (a d : Reg) (imm : Word) (s : State) : Result :=
  aluC (shiftRightSigned s.cfg.shiftPolicy) a d imm s

end Sys2Proof.Machine
end

