-- ==== Sys2Proof/Machine/Flags.lean ====
section
/-!
DEFINITION. The KCPU has no flags, no condition codes and no predicate registers (spec/10_state.md
R40): no instruction sets or reads one, and carry, overflow, zero and sign are recorded nowhere.
What another machine keeps in flags is computed here by the branches themselves, from register
values (spec/45_branches.md R261 to R276).
-/

namespace Sys2Proof.Machine

/-- `R == 0` (R261). -/
def isZero (v : Word) : Bool := v == 0
/-- `SR < 0` (R263). -/
def isNegative (v : Word) : Bool := decide (v.toInt < 0)
/-- `SR > 0` (R265). -/
def isPositive (v : Word) : Bool := decide (0 < v.toInt)
/-- `R_B == R_A` (R267). -/
def isEqual (b a : Word) : Bool := b == a
/-- `SR_B < SR_A` (R269): of the two values, not of their wrapped difference. -/
def lessSigned (b a : Word) : Bool := decide (b.toInt < a.toInt)
/-- `R_B < R_A` (R271). -/
def lessUnsigned (b a : Word) : Bool := decide (b.toNat < a.toNat)
/-- Bit number `n` of a register (R275, R276). -/
def bitOf (v : Word) (n : Nat) : Bool := v.getLsbD n

end Sys2Proof.Machine
end

