-- ==== Sys2Proof/Machine/Branch.lean ====
section
/-!
DEFINITION. The sixteen branches (spec/45_branches.md): 48 bits, conditional, changing only the
current mode's program counter (R260).
-/

namespace Sys2Proof.Machine

/-- BEQZ: if `R_B == 0` (R261). -/
def execBeqz (b : Reg) (off : PcBits) (rel : Bool) (s : State) : Result :=
  branch (isZero (s.readX b)) off rel s

/-- BNEZ: if `R_B != 0` (R262). -/
def execBnez (b : Reg) (off : PcBits) (rel : Bool) (s : State) : Result :=
  branch (!isZero (s.readX b)) off rel s

/-- BLTZ: if `SR_B < 0` (R263). -/
def execBltz (b : Reg) (off : PcBits) (rel : Bool) (s : State) : Result :=
  branch (isNegative (s.readX b)) off rel s

/-- BGEZ: if `SR_B >= 0` (R264). -/
def execBgez (b : Reg) (off : PcBits) (rel : Bool) (s : State) : Result :=
  branch (!isNegative (s.readX b)) off rel s

/-- BGTZ: if `SR_B > 0` (R265). -/
def execBgtz (b : Reg) (off : PcBits) (rel : Bool) (s : State) : Result :=
  branch (isPositive (s.readX b)) off rel s

/-- BLEZ: if `SR_B <= 0` (R266). -/
def execBlez (b : Reg) (off : PcBits) (rel : Bool) (s : State) : Result :=
  branch (!isPositive (s.readX b)) off rel s

/-- BEQ: if `R_B == R_A` (R267). -/
def execBeq (b a : Reg) (off : PcBits) (rel : Bool) (s : State) : Result :=
  branch (isEqual (s.readX b) (s.readX a)) off rel s

/-- BNE: if `R_B != R_A` (R268). -/
def execBne (b a : Reg) (off : PcBits) (rel : Bool) (s : State) : Result :=
  branch (!isEqual (s.readX b) (s.readX a)) off rel s

/-- BLTS: if `SR_B < SR_A` (R269). -/
def execBlts (b a : Reg) (off : PcBits) (rel : Bool) (s : State) : Result :=
  branch (lessSigned (s.readX b) (s.readX a)) off rel s

/-- BGES: if `SR_B >= SR_A` (R270). -/
def execBges (b a : Reg) (off : PcBits) (rel : Bool) (s : State) : Result :=
  branch (!lessSigned (s.readX b) (s.readX a)) off rel s

/-- BLTU: if `R_B < R_A` (R271). -/
def execBltu (b a : Reg) (off : PcBits) (rel : Bool) (s : State) : Result :=
  branch (lessUnsigned (s.readX b) (s.readX a)) off rel s

/-- BGEU: if `R_B >= R_A` (R272). -/
def execBgeu (b a : Reg) (off : PcBits) (rel : Bool) (s : State) : Result :=
  branch (!lessUnsigned (s.readX b) (s.readX a)) off rel s

/-- BFLT: if `FR_B < FR_A`, by spec/90_conflicts.md C4 (R273). -/
def execBflt (b a : Reg) (off : PcBits) (rel : Bool) (s : State) : Result :=
  branch (FP.lt (s.readX b) (s.readX a)) off rel s

/-- BFGE: if `FR_B >= FR_A`, by spec/90_conflicts.md C4; not the negation of BFLT (R274). -/
def execBfge (b a : Reg) (off : PcBits) (rel : Bool) (s : State) : Result :=
  branch (FP.ge (s.readX b) (s.readX a)) off rel s

/-- BBS: if bit n of R_A is 1 (R275). -/
def execBbs (n : Nib) (a : Reg) (off : PcBits) (rel : Bool) (s : State) : Result :=
  branch (bitOf (s.readX a) n.val) off rel s

/-- BBC: if bit n of R_B is 0, by spec/90_conflicts.md C3 (R276). -/
def execBbc (n : Nib) (b : Reg) (off : PcBits) (rel : Bool) (s : State) : Result :=
  branch (!bitOf (s.readX b) n.val) off rel s

end Sys2Proof.Machine
end

