-- ==== Sys2Proof/Machine/Float.lean ====
section
/-!
DEFINITION. The floating-point instructions (spec/44_float.md). The arithmetic is the uninterpreted
record FP of Config.lean (R235); there is no floating-point state and no exception (R248).
-/

namespace Sys2Proof.Machine

/-- FADD: `FR_D = FR_B + FR_A` (R236). -/
def execFadd (b a d : Gpr) (s : State) : Result :=
  aluA FP.add (.gp b) (.gp a) (.gp d) s

/-- FSUB: `FR_D = FR_B - FR_A` (R237). -/
def execFsub (b a d : Gpr) (s : State) : Result :=
  aluA FP.sub (.gp b) (.gp a) (.gp d) s

/-- FMUL: `FR_D = FR_B * FR_A` (R238). -/
def execFmul (b a d : Gpr) (s : State) : Result :=
  aluA FP.mul (.gp b) (.gp a) (.gp d) s

/-- FTOI: float to signed integer, its rounding inside `FP.f2i` (D31) (R240). -/
def execFtoi (a d : Gpr) (s : State) : Result :=
  aluA1 FP.f2i (.gp a) (.gp d) s

/-- ITOF: signed integer to float (R239). -/
def execItof (b d : Gpr) (s : State) : Result :=
  aluA1 FP.i2f (.gp b) (.gp d) s

/-- FRECIP: `FR_D = 1 / FR_A` (R242). -/
def execFrecip (a d : Gpr) (s : State) : Result :=
  aluA1 FP.recip (.gp a) (.gp d) s

/-- FRSQRT: `FR_D = 1 / sqrt(FR_B)` (R241). -/
def execFrsqrt (b d : Gpr) (s : State) : Result :=
  aluA1 FP.rsqrt (.gp b) (.gp d) s

/-- FADDI: `FR_D = FR_B + VALUE` (R243). -/
def execFaddi (b d : Gpr) (imm : Word) (s : State) : Result :=
  aluB FP.add (.gp b) (.gp d) imm s

/-- FSUBI: `FR_D = FR_B - VALUE` (R244). -/
def execFsubi (b d : Gpr) (imm : Word) (s : State) : Result :=
  aluB FP.sub (.gp b) (.gp d) imm s

/-- FMULI: `FR_D = FR_B * VALUE` (R245). -/
def execFmuli (b d : Gpr) (imm : Word) (s : State) : Result :=
  aluB FP.mul (.gp b) (.gp d) imm s

/-- IFSUB: `FR_D = VALUE - FR_A`, by spec/90_conflicts.md C9 (R246). -/
def execIfsub (a d : Gpr) (imm : Word) (s : State) : Result :=
  aluC FP.sub (.gp a) (.gp d) imm s

end Sys2Proof.Machine
end

