-- ==== Sys2Proof/Machine/LoadStore.lean ====
section
/-!
DEFINITION. Loads and stores in forms A, C and D (spec/46_load_store.md). Each makes exactly one data
access; a stopped access writes nothing (R300).
-/

namespace Sys2Proof.Machine

/-- LDSB, form A: 8-bit signed load from `[R_A]` (R305). -/
def execLdsbA (a d : Reg) (s : State) : Result :=
  load 2 .byte sext8 (s.eaA a) d s

/-- LDUB, form A: 8-bit unsigned load from `[R_A]` (R306). -/
def execLdubA (a d : Reg) (s : State) : Result :=
  load 2 .byte zext8 (s.eaA a) d s

/-- LDSH, form A: 16-bit signed load from `[R_A]` (R307). -/
def execLdshA (a d : Reg) (s : State) : Result :=
  load 2 .half sext16 (s.eaA a) d s

/-- LDUH, form A: 16-bit unsigned load from `[R_A]` (R308). -/
def execLduhA (a d : Reg) (s : State) : Result :=
  load 2 .half zext16 (s.eaA a) d s

/-- LDW, form A: 32-bit load from `[R_A]` (R309). -/
def execLdwA (a d : Reg) (s : State) : Result :=
  load 2 .word id (s.eaA a) d s

/-- STB, form A: 8-bit store to `[R_A]` (R310). -/
def execStbA (a d : Reg) (s : State) : Result :=
  store 2 .byte (s.eaA a) (s.readX d) s

/-- STH, form A: 16-bit store to `[R_A]` (R311). -/
def execSthA (a d : Reg) (s : State) : Result :=
  store 2 .half (s.eaA a) (s.readX d) s

/-- STW, form A: 32-bit store to `[R_A]` (R312). -/
def execStwA (a d : Reg) (s : State) : Result :=
  store 2 .word (s.eaA a) (s.readX d) s

/-- LDSB, form C: 8-bit signed load from `[VALUE]` (R313). -/
def execLdsbC (d : Reg) (imm : Word) (s : State) : Result :=
  load 6 .byte sext8 (s.eaC imm) d s

/-- LDSB, form C, into TPC: 8-bit signed load from `[VALUE]` (R313). -/
def execLdsbCTpc (imm : Word) (s : State) : Result :=
  loadTpc 6 .byte sext8 (s.eaC imm) s

/-- LDUB, form C: 8-bit unsigned load from `[VALUE]` (R314). -/
def execLdubC (d : Reg) (imm : Word) (s : State) : Result :=
  load 6 .byte zext8 (s.eaC imm) d s

/-- LDUB, form C, into TPC: 8-bit unsigned load from `[VALUE]` (R314). -/
def execLdubCTpc (imm : Word) (s : State) : Result :=
  loadTpc 6 .byte zext8 (s.eaC imm) s

/-- LDSH, form C: 16-bit signed load from `[VALUE]` (R315). -/
def execLdshC (d : Reg) (imm : Word) (s : State) : Result :=
  load 6 .half sext16 (s.eaC imm) d s

/-- LDSH, form C, into TPC: 16-bit signed load from `[VALUE]` (R315). -/
def execLdshCTpc (imm : Word) (s : State) : Result :=
  loadTpc 6 .half sext16 (s.eaC imm) s

/-- LDUH, form C: 16-bit unsigned load from `[VALUE]` (R316). -/
def execLduhC (d : Reg) (imm : Word) (s : State) : Result :=
  load 6 .half zext16 (s.eaC imm) d s

/-- LDUH, form C, into TPC: 16-bit unsigned load from `[VALUE]` (R316). -/
def execLduhCTpc (imm : Word) (s : State) : Result :=
  loadTpc 6 .half zext16 (s.eaC imm) s

/-- LDW, form C: 32-bit load from `[VALUE]` (R317). -/
def execLdwC (d : Reg) (imm : Word) (s : State) : Result :=
  load 6 .word id (s.eaC imm) d s

/-- LDW, form C, into TPC: 32-bit load from `[VALUE]` (R317). -/
def execLdwCTpc (imm : Word) (s : State) : Result :=
  loadTpc 6 .word id (s.eaC imm) s

/-- STB, form C: 8-bit store to `[VALUE]` (R318). -/
def execStbC (d : Reg) (imm : Word) (s : State) : Result :=
  store 6 .byte (s.eaC imm) (s.readX d) s

/-- STB, form C, of TPC: 8-bit store to `[VALUE]` (R318). -/
def execStbCTpc (imm : Word) (s : State) : Result :=
  store 6 .byte (s.eaC imm) s.readTpc s

/-- STH, form C: 16-bit store to `[VALUE]` (R319). -/
def execSthC (d : Reg) (imm : Word) (s : State) : Result :=
  store 6 .half (s.eaC imm) (s.readX d) s

/-- STH, form C, of TPC: 16-bit store to `[VALUE]` (R319). -/
def execSthCTpc (imm : Word) (s : State) : Result :=
  store 6 .half (s.eaC imm) s.readTpc s

/-- STW, form C: 32-bit store to `[VALUE]` (R320). -/
def execStwC (d : Reg) (imm : Word) (s : State) : Result :=
  store 6 .word (s.eaC imm) (s.readX d) s

/-- STW, form C, of TPC: 32-bit store to `[VALUE]` (R320). -/
def execStwCTpc (imm : Word) (s : State) : Result :=
  store 6 .word (s.eaC imm) s.readTpc s

/-- LDSB, form D: 8-bit signed load from `[R_A+VALUE]` (R321). -/
def execLdsbD (a d : Reg) (imm : Word) (s : State) : Result :=
  load 6 .byte sext8 (s.eaD a imm) d s

/-- LDSB, form D, into TPC: 8-bit signed load from `[R_A+VALUE]` (R321). -/
def execLdsbDTpc (a : Reg) (imm : Word) (s : State) : Result :=
  loadTpc 6 .byte sext8 (s.eaD a imm) s

/-- LDUB, form D: 8-bit unsigned load from `[R_A+VALUE]` (R322). -/
def execLdubD (a d : Reg) (imm : Word) (s : State) : Result :=
  load 6 .byte zext8 (s.eaD a imm) d s

/-- LDUB, form D, into TPC: 8-bit unsigned load from `[R_A+VALUE]` (R322). -/
def execLdubDTpc (a : Reg) (imm : Word) (s : State) : Result :=
  loadTpc 6 .byte zext8 (s.eaD a imm) s

/-- LDSH, form D: 16-bit signed load from `[R_A+VALUE]` (R323). -/
def execLdshD (a d : Reg) (imm : Word) (s : State) : Result :=
  load 6 .half sext16 (s.eaD a imm) d s

/-- LDSH, form D, into TPC: 16-bit signed load from `[R_A+VALUE]` (R323). -/
def execLdshDTpc (a : Reg) (imm : Word) (s : State) : Result :=
  loadTpc 6 .half sext16 (s.eaD a imm) s

/-- LDUH, form D: 16-bit unsigned load from `[R_A+VALUE]` (R324). -/
def execLduhD (a d : Reg) (imm : Word) (s : State) : Result :=
  load 6 .half zext16 (s.eaD a imm) d s

/-- LDUH, form D, into TPC: 16-bit unsigned load from `[R_A+VALUE]` (R324). -/
def execLduhDTpc (a : Reg) (imm : Word) (s : State) : Result :=
  loadTpc 6 .half zext16 (s.eaD a imm) s

/-- LDW, form D: 32-bit load from `[R_A+VALUE]` (R325). -/
def execLdwD (a d : Reg) (imm : Word) (s : State) : Result :=
  load 6 .word id (s.eaD a imm) d s

/-- LDW, form D, into TPC: 32-bit load from `[R_A+VALUE]` (R325). -/
def execLdwDTpc (a : Reg) (imm : Word) (s : State) : Result :=
  loadTpc 6 .word id (s.eaD a imm) s

/-- STB, form D: 8-bit store to `[R_A+VALUE]` (R326). -/
def execStbD (a d : Reg) (imm : Word) (s : State) : Result :=
  store 6 .byte (s.eaD a imm) (s.readX d) s

/-- STB, form D, of TPC: 8-bit store to `[R_A+VALUE]` (R326). -/
def execStbDTpc (a : Reg) (imm : Word) (s : State) : Result :=
  store 6 .byte (s.eaD a imm) s.readTpc s

/-- STH, form D: 16-bit store to `[R_A+VALUE]` (R327). -/
def execSthD (a d : Reg) (imm : Word) (s : State) : Result :=
  store 6 .half (s.eaD a imm) (s.readX d) s

/-- STH, form D, of TPC: 16-bit store to `[R_A+VALUE]` (R327). -/
def execSthDTpc (a : Reg) (imm : Word) (s : State) : Result :=
  store 6 .half (s.eaD a imm) s.readTpc s

/-- STW, form D: 32-bit store to `[R_A+VALUE]` (R328). -/
def execStwD (a d : Reg) (imm : Word) (s : State) : Result :=
  store 6 .word (s.eaD a imm) (s.readX d) s

/-- STW, form D, of TPC: 32-bit store to `[R_A+VALUE]` (R328). -/
def execStwDTpc (a : Reg) (imm : Word) (s : State) : Result :=
  store 6 .word (s.eaD a imm) s.readTpc s

end Sys2Proof.Machine
end

