-- ==== Sys2Proof/Machine/Reserved.lean ====
section
/-!
DEFINITION. The reserved encodings (spec/47_reserved.md, spec/41_system.md R174): every one raises SII,
reads no register and accesses no memory beyond the fetch of INST (R350). One definition a row.
-/

namespace Sys2Proof.Machine

/-- Row SII.xor_hole of the opcode table: `raise SII` (R174, R350). -/
def execSiiXorHole (_n : Nib) (s : State) : Result := s.raise .sii

/-- Row SII.a_d0.9 of the opcode table: `raise SII` (R351, R350). -/
def execSiiAD0_9 (_b : Reg) (_a : Reg) (s : State) : Result := s.raise .sii

/-- Row SII.a_d0.a of the opcode table: `raise SII` (R351, R350). -/
def execSiiAD0_a (_b : Reg) (_a : Reg) (s : State) : Result := s.raise .sii

/-- Row SII.a_d0.b of the opcode table: `raise SII` (R351, R350). -/
def execSiiAD0_b (_b : Reg) (_a : Reg) (s : State) : Result := s.raise .sii

/-- Row SII.a_d0.c of the opcode table: `raise SII` (R351, R350). -/
def execSiiAD0_c (_b : Reg) (_a : Reg) (s : State) : Result := s.raise .sii

/-- Row SII.a_d0.d of the opcode table: `raise SII` (R351, R350). -/
def execSiiAD0_d (_b : Reg) (_a : Reg) (s : State) : Result := s.raise .sii

/-- Row SII.a_d0.e of the opcode table: `raise SII` (R351, R350). -/
def execSiiAD0_e (_b : Reg) (_a : Reg) (s : State) : Result := s.raise .sii

/-- Row SII.a_b0a0.9 of the opcode table: `raise SII` (R351, R350). -/
def execSiiAB0A0_9 (_d : Gpr) (s : State) : Result := s.raise .sii

/-- Row SII.a_b0a0.a of the opcode table: `raise SII` (R351, R350). -/
def execSiiAB0A0_a (_d : Gpr) (s : State) : Result := s.raise .sii

/-- Row SII.a_b0a0.b of the opcode table: `raise SII` (R351, R350). -/
def execSiiAB0A0_b (_d : Gpr) (s : State) : Result := s.raise .sii

/-- Row SII.a_b0a0.c of the opcode table: `raise SII` (R351, R350). -/
def execSiiAB0A0_c (_d : Gpr) (s : State) : Result := s.raise .sii

/-- Row SII.a_b0a0.d of the opcode table: `raise SII` (R351, R350). -/
def execSiiAB0A0_d (_d : Gpr) (s : State) : Result := s.raise .sii

/-- Row SII.a_b0a0.e of the opcode table: `raise SII` (R351, R350). -/
def execSiiAB0A0_e (_d : Gpr) (s : State) : Result := s.raise .sii

/-- Row SII.b_d0.c of the opcode table: `raise SII` (R352, R350). -/
def execSiiBD0_c (_b : Reg) (s : State) : Result := s.raise .sii

/-- Row SII.b_d0.d of the opcode table: `raise SII` (R352, R350). -/
def execSiiBD0_d (_b : Reg) (s : State) : Result := s.raise .sii

/-- Row SII.b_d0.e of the opcode table: `raise SII` (R352, R350). -/
def execSiiBD0_e (_b : Reg) (s : State) : Result := s.raise .sii

/-- Row SII.b_b0.c of the opcode table: `raise SII` (R352, R350). -/
def execSiiBB0_c (_d : Gpr) (s : State) : Result := s.raise .sii

/-- Row SII.b_b0.d of the opcode table: `raise SII` (R352, R350). -/
def execSiiBB0_d (_d : Gpr) (s : State) : Result := s.raise .sii

/-- Row SII.b_b0.e of the opcode table: `raise SII` (R352, R350). -/
def execSiiBB0_e (_d : Gpr) (s : State) : Result := s.raise .sii

/-- Row SII.c.0 of the opcode table: `raise SII` (R353, R350). -/
def execSiiC_0 (_a : Reg) (_d : Reg) (s : State) : Result := s.raise .sii

/-- Row SII.c.1 of the opcode table: `raise SII` (R353, R350). -/
def execSiiC_1 (_a : Reg) (_d : Reg) (s : State) : Result := s.raise .sii

/-- Row SII.c.2 of the opcode table: `raise SII` (R353, R350). -/
def execSiiC_2 (_a : Reg) (_d : Reg) (s : State) : Result := s.raise .sii

/-- Row SII.c.4 of the opcode table: `raise SII` (R353, R350). -/
def execSiiC_4 (_a : Reg) (_d : Reg) (s : State) : Result := s.raise .sii

/-- Row SII.c.8 of the opcode table: `raise SII` (R353, R350). -/
def execSiiC_8 (_a : Reg) (_d : Reg) (s : State) : Result := s.raise .sii

/-- Row SII.c.9 of the opcode table: `raise SII` (R353, R350). -/
def execSiiC_9 (_a : Reg) (_d : Reg) (s : State) : Result := s.raise .sii

/-- Row SII.c.a of the opcode table: `raise SII` (R353, R350). -/
def execSiiC_a (_a : Reg) (_d : Reg) (s : State) : Result := s.raise .sii

/-- Row SII.c.b of the opcode table: `raise SII` (R353, R350). -/
def execSiiC_b (_a : Reg) (_d : Reg) (s : State) : Result := s.raise .sii

/-- Row SII.c.c of the opcode table: `raise SII` (R353, R350). -/
def execSiiC_c (_a : Reg) (_d : Reg) (s : State) : Result := s.raise .sii

/-- Row SII.c.e of the opcode table: `raise SII` (R353, R350). -/
def execSiiC_e (_a : Reg) (_d : Reg) (s : State) : Result := s.raise .sii

/-- Row SII.c_d0.d of the opcode table: `raise SII` (R353, R350). -/
def execSiiCD0_d (_a : Reg) (s : State) : Result := s.raise .sii

/-- Row SII.c_a0.d of the opcode table: `raise SII` (R353, R350). -/
def execSiiCA0_d (_d : Gpr) (s : State) : Result := s.raise .sii

/-- Row SII.br0 of the opcode table: `raise SII` (R354, R350). -/
def execSiiBr0 (_b : Reg) (_a : Nib) (s : State) : Result := s.raise .sii

/-- Row SII.br.7 of the opcode table: `raise SII` (R354, R350). -/
def execSiiBr_7 (_b : Reg) (_a : Reg) (s : State) : Result := s.raise .sii

/-- Row SII.br.8 of the opcode table: `raise SII` (R354, R350). -/
def execSiiBr_8 (_b : Reg) (_a : Reg) (s : State) : Result := s.raise .sii

/-- Row SII.br.9 of the opcode table: `raise SII` (R354, R350). -/
def execSiiBr_9 (_b : Reg) (_a : Reg) (s : State) : Result := s.raise .sii

/-- Row SII.br.a of the opcode table: `raise SII` (R354, R350). -/
def execSiiBr_a (_b : Reg) (_a : Reg) (s : State) : Result := s.raise .sii

/-- Row SII.br.b of the opcode table: `raise SII` (R354, R350). -/
def execSiiBr_b (_b : Reg) (_a : Reg) (s : State) : Result := s.raise .sii

/-- Row SII.br.c of the opcode table: `raise SII` (R354, R350). -/
def execSiiBr_c (_b : Reg) (_a : Reg) (s : State) : Result := s.raise .sii

/-- Row SII.cd of the opcode table: `raise SII` (R355, R350). -/
def execSiiCD (_c : Nib) (_d : Reg) (s : State) : Result := s.raise .sii

/-- Row SII.c_only of the opcode table: `raise SII` (R356, R350). -/
def execSiiCOnly (_c : Nib) (s : State) : Result := s.raise .sii

/-- Row SII.ls_a_df of the opcode table: `raise SII` (R357, R350). -/
def execSiiLsADf (_b : Nib) (_a : Nib) (s : State) : Result := s.raise .sii

/-- Row SII.ls_a_af of the opcode table: `raise SII` (R357, R350). -/
def execSiiLsAAf (_b : Nib) (_d : Reg) (s : State) : Result := s.raise .sii

end Sys2Proof.Machine
end

