-- ==== Sys2Proof/Machine/System.lean ====
section
/-!
DEFINITION. The system instructions of group CBAD (spec/41_system.md). None is privileged. SII, the
eighth of that file, is in Reserved.lean.
-/

namespace Sys2Proof.Machine

/-- FILL: `enter_scheduler(npc)` (R170). -/
def execFill (s : State) : Result :=
  .next (s.enterScheduler 2)

/-- BREAK: `enter_scheduler(npc)` (R171). -/
def execBrk (s : State) : Result :=
  .next (s.enterScheduler 2)

/-- SYSCALL: `enter_scheduler(npc)` (R172). -/
def execSyscall (s : State) : Result :=
  .next (s.enterScheduler 2)

/-- STU: the return to TASK mode (R173). -/
def execStu (s : State) : Result :=
  .next (s.returnToTask 2)

/-- FENCE: every earlier memory reference is completed (R175). -/
def execFence (s : State) : Result :=
  .next (s.fence.advance 2)

/-- WFENCE: the write queue is flushed; fetch coherence is FENCE's alone (R176). -/
def execWfence (s : State) : Result :=
  .next (s.flush.advance 2)

/-- WOI: exactly the OR it overlays, `x[0] <- x[0] | x[0]`; power saving is not visible (R177). -/
def execWoi (s : State) : Result :=
  aluA (· ||| ·) .pc .pc .pc s

end Sys2Proof.Machine
end

