-- ==== Sys2Proof/Machine/Dispatch.lean ====
section
/-!
DEFINITION. The dispatch: one arm for each constructor of `Instr`, each a call of its meaning.
-/

namespace Sys2Proof.Machine

def exec (i : Instr) (s : State) : Host.Outcome State Fault Refusal :=
  match i with
  | .xor b a d => Sys2Proof.Machine.execXor b a d s
  | .or b a d => Sys2Proof.Machine.execOr b a d s
  | .and b a d => Sys2Proof.Machine.execAnd b a d s
  | .sub b a d => Sys2Proof.Machine.execSub b a d s
  | .add b a d => Sys2Proof.Machine.execAdd b a d s
  | .shl b a d => Sys2Proof.Machine.execShl b a d s
  | .shr b a d => Sys2Proof.Machine.execShr b a d s
  | .sar b a d => Sys2Proof.Machine.execSar b a d s
  | .muls b a d => Sys2Proof.Machine.execMuls b a d s
  | .mulu b a d => Sys2Proof.Machine.execMulu b a d s
  | .mulhs b a d => Sys2Proof.Machine.execMulhs b a d s
  | .mulhu b a d => Sys2Proof.Machine.execMulhu b a d s
  | .xmov a d => Sys2Proof.Machine.execXmov a d s
  | .inc a d => Sys2Proof.Machine.execInc a d s
  | .dec b d => Sys2Proof.Machine.execDec b d s
  | .neg a d => Sys2Proof.Machine.execNeg a d s
  | .not b d => Sys2Proof.Machine.execNot b d s
  | .bswap a d => Sys2Proof.Machine.execBswap a d s
  | .wswap b d => Sys2Proof.Machine.execWswap b d s
  | .bsi a d => Sys2Proof.Machine.execBsi a d s
  | .wsi b d => Sys2Proof.Machine.execWsi b d s
  | .fill => Sys2Proof.Machine.execFill s
  | .brk => Sys2Proof.Machine.execBrk s
  | .syscall => Sys2Proof.Machine.execSyscall s
  | .stu => Sys2Proof.Machine.execStu s
  | .fence => Sys2Proof.Machine.execFence s
  | .wfence => Sys2Proof.Machine.execWfence s
  | .woi => Sys2Proof.Machine.execWoi s
  | .xori b d imm => Sys2Proof.Machine.execXori b d imm s
  | .ori b d imm => Sys2Proof.Machine.execOri b d imm s
  | .andi b d imm => Sys2Proof.Machine.execAndi b d imm s
  | .subi b d imm => Sys2Proof.Machine.execSubi b d imm s
  | .addi b d imm => Sys2Proof.Machine.execAddi b d imm s
  | .shli b d imm => Sys2Proof.Machine.execShli b d imm s
  | .shri b d imm => Sys2Proof.Machine.execShri b d imm s
  | .sari b d imm => Sys2Proof.Machine.execSari b d imm s
  | .mulsi b d imm => Sys2Proof.Machine.execMulsi b d imm s
  | .mului b d imm => Sys2Proof.Machine.execMului b d imm s
  | .mulhsi b d imm => Sys2Proof.Machine.execMulhsi b d imm s
  | .mulhui b d imm => Sys2Proof.Machine.execMulhui b d imm s
  | .li d imm => Sys2Proof.Machine.execLi d imm s
  | .lit d imm => Sys2Proof.Machine.execLit d imm s
  | .isub a d imm => Sys2Proof.Machine.execIsub a d imm s
  | .ishl a d imm => Sys2Proof.Machine.execIshl a d imm s
  | .ishr a d imm => Sys2Proof.Machine.execIshr a d imm s
  | .isar a d imm => Sys2Proof.Machine.execIsar a d imm s
  | .fadd b a d => Sys2Proof.Machine.execFadd b a d s
  | .fsub b a d => Sys2Proof.Machine.execFsub b a d s
  | .fmul b a d => Sys2Proof.Machine.execFmul b a d s
  | .ftoi a d => Sys2Proof.Machine.execFtoi a d s
  | .itof b d => Sys2Proof.Machine.execItof b d s
  | .frecip a d => Sys2Proof.Machine.execFrecip a d s
  | .frsqrt b d => Sys2Proof.Machine.execFrsqrt b d s
  | .faddi b d imm => Sys2Proof.Machine.execFaddi b d imm s
  | .fsubi b d imm => Sys2Proof.Machine.execFsubi b d imm s
  | .fmuli b d imm => Sys2Proof.Machine.execFmuli b d imm s
  | .ifsub a d imm => Sys2Proof.Machine.execIfsub a d imm s
  | .beqz b off rel => Sys2Proof.Machine.execBeqz b off rel s
  | .bnez b off rel => Sys2Proof.Machine.execBnez b off rel s
  | .bltz b off rel => Sys2Proof.Machine.execBltz b off rel s
  | .bgez b off rel => Sys2Proof.Machine.execBgez b off rel s
  | .bgtz b off rel => Sys2Proof.Machine.execBgtz b off rel s
  | .blez b off rel => Sys2Proof.Machine.execBlez b off rel s
  | .beq b a off rel => Sys2Proof.Machine.execBeq b a off rel s
  | .bne b a off rel => Sys2Proof.Machine.execBne b a off rel s
  | .blts b a off rel => Sys2Proof.Machine.execBlts b a off rel s
  | .bges b a off rel => Sys2Proof.Machine.execBges b a off rel s
  | .bltu b a off rel => Sys2Proof.Machine.execBltu b a off rel s
  | .bgeu b a off rel => Sys2Proof.Machine.execBgeu b a off rel s
  | .bflt b a off rel => Sys2Proof.Machine.execBflt b a off rel s
  | .bfge b a off rel => Sys2Proof.Machine.execBfge b a off rel s
  | .bbs n a off rel => Sys2Proof.Machine.execBbs n a off rel s
  | .bbc n b off rel => Sys2Proof.Machine.execBbc n b off rel s
  | .ldsbA a d => Sys2Proof.Machine.execLdsbA a d s
  | .ldubA a d => Sys2Proof.Machine.execLdubA a d s
  | .ldshA a d => Sys2Proof.Machine.execLdshA a d s
  | .lduhA a d => Sys2Proof.Machine.execLduhA a d s
  | .ldwA a d => Sys2Proof.Machine.execLdwA a d s
  | .stbA a d => Sys2Proof.Machine.execStbA a d s
  | .sthA a d => Sys2Proof.Machine.execSthA a d s
  | .stwA a d => Sys2Proof.Machine.execStwA a d s
  | .ldsbC d imm => Sys2Proof.Machine.execLdsbC d imm s
  | .ldsbCTpc imm => Sys2Proof.Machine.execLdsbCTpc imm s
  | .ldubC d imm => Sys2Proof.Machine.execLdubC d imm s
  | .ldubCTpc imm => Sys2Proof.Machine.execLdubCTpc imm s
  | .ldshC d imm => Sys2Proof.Machine.execLdshC d imm s
  | .ldshCTpc imm => Sys2Proof.Machine.execLdshCTpc imm s
  | .lduhC d imm => Sys2Proof.Machine.execLduhC d imm s
  | .lduhCTpc imm => Sys2Proof.Machine.execLduhCTpc imm s
  | .ldwC d imm => Sys2Proof.Machine.execLdwC d imm s
  | .ldwCTpc imm => Sys2Proof.Machine.execLdwCTpc imm s
  | .stbC d imm => Sys2Proof.Machine.execStbC d imm s
  | .stbCTpc imm => Sys2Proof.Machine.execStbCTpc imm s
  | .sthC d imm => Sys2Proof.Machine.execSthC d imm s
  | .sthCTpc imm => Sys2Proof.Machine.execSthCTpc imm s
  | .stwC d imm => Sys2Proof.Machine.execStwC d imm s
  | .stwCTpc imm => Sys2Proof.Machine.execStwCTpc imm s
  | .ldsbD a d imm => Sys2Proof.Machine.execLdsbD a d imm s
  | .ldsbDTpc a imm => Sys2Proof.Machine.execLdsbDTpc a imm s
  | .ldubD a d imm => Sys2Proof.Machine.execLdubD a d imm s
  | .ldubDTpc a imm => Sys2Proof.Machine.execLdubDTpc a imm s
  | .ldshD a d imm => Sys2Proof.Machine.execLdshD a d imm s
  | .ldshDTpc a imm => Sys2Proof.Machine.execLdshDTpc a imm s
  | .lduhD a d imm => Sys2Proof.Machine.execLduhD a d imm s
  | .lduhDTpc a imm => Sys2Proof.Machine.execLduhDTpc a imm s
  | .ldwD a d imm => Sys2Proof.Machine.execLdwD a d imm s
  | .ldwDTpc a imm => Sys2Proof.Machine.execLdwDTpc a imm s
  | .stbD a d imm => Sys2Proof.Machine.execStbD a d imm s
  | .stbDTpc a imm => Sys2Proof.Machine.execStbDTpc a imm s
  | .sthD a d imm => Sys2Proof.Machine.execSthD a d imm s
  | .sthDTpc a imm => Sys2Proof.Machine.execSthDTpc a imm s
  | .stwD a d imm => Sys2Proof.Machine.execStwD a d imm s
  | .stwDTpc a imm => Sys2Proof.Machine.execStwDTpc a imm s
  | .siiXorHole n => Sys2Proof.Machine.execSiiXorHole n s
  | .siiAD0_9 b a => Sys2Proof.Machine.execSiiAD0_9 b a s
  | .siiAD0_a b a => Sys2Proof.Machine.execSiiAD0_a b a s
  | .siiAD0_b b a => Sys2Proof.Machine.execSiiAD0_b b a s
  | .siiAD0_c b a => Sys2Proof.Machine.execSiiAD0_c b a s
  | .siiAD0_d b a => Sys2Proof.Machine.execSiiAD0_d b a s
  | .siiAD0_e b a => Sys2Proof.Machine.execSiiAD0_e b a s
  | .siiAB0A0_9 d => Sys2Proof.Machine.execSiiAB0A0_9 d s
  | .siiAB0A0_a d => Sys2Proof.Machine.execSiiAB0A0_a d s
  | .siiAB0A0_b d => Sys2Proof.Machine.execSiiAB0A0_b d s
  | .siiAB0A0_c d => Sys2Proof.Machine.execSiiAB0A0_c d s
  | .siiAB0A0_d d => Sys2Proof.Machine.execSiiAB0A0_d d s
  | .siiAB0A0_e d => Sys2Proof.Machine.execSiiAB0A0_e d s
  | .siiBD0_c b => Sys2Proof.Machine.execSiiBD0_c b s
  | .siiBD0_d b => Sys2Proof.Machine.execSiiBD0_d b s
  | .siiBD0_e b => Sys2Proof.Machine.execSiiBD0_e b s
  | .siiBB0_c d => Sys2Proof.Machine.execSiiBB0_c d s
  | .siiBB0_d d => Sys2Proof.Machine.execSiiBB0_d d s
  | .siiBB0_e d => Sys2Proof.Machine.execSiiBB0_e d s
  | .siiC_0 a d => Sys2Proof.Machine.execSiiC_0 a d s
  | .siiC_1 a d => Sys2Proof.Machine.execSiiC_1 a d s
  | .siiC_2 a d => Sys2Proof.Machine.execSiiC_2 a d s
  | .siiC_4 a d => Sys2Proof.Machine.execSiiC_4 a d s
  | .siiC_8 a d => Sys2Proof.Machine.execSiiC_8 a d s
  | .siiC_9 a d => Sys2Proof.Machine.execSiiC_9 a d s
  | .siiC_a a d => Sys2Proof.Machine.execSiiC_a a d s
  | .siiC_b a d => Sys2Proof.Machine.execSiiC_b a d s
  | .siiC_c a d => Sys2Proof.Machine.execSiiC_c a d s
  | .siiC_e a d => Sys2Proof.Machine.execSiiC_e a d s
  | .siiCD0_d a => Sys2Proof.Machine.execSiiCD0_d a s
  | .siiCA0_d d => Sys2Proof.Machine.execSiiCA0_d d s
  | .siiBr0 b a => Sys2Proof.Machine.execSiiBr0 b a s
  | .siiBr_7 b a => Sys2Proof.Machine.execSiiBr_7 b a s
  | .siiBr_8 b a => Sys2Proof.Machine.execSiiBr_8 b a s
  | .siiBr_9 b a => Sys2Proof.Machine.execSiiBr_9 b a s
  | .siiBr_a b a => Sys2Proof.Machine.execSiiBr_a b a s
  | .siiBr_b b a => Sys2Proof.Machine.execSiiBr_b b a s
  | .siiBr_c b a => Sys2Proof.Machine.execSiiBr_c b a s
  | .siiCD c d => Sys2Proof.Machine.execSiiCD c d s
  | .siiCOnly c => Sys2Proof.Machine.execSiiCOnly c s
  | .siiLsADf b a => Sys2Proof.Machine.execSiiLsADf b a s
  | .siiLsAAf b d => Sys2Proof.Machine.execSiiLsAAf b d s

end Sys2Proof.Machine
end

