-- ==== Sys2Proof/Machine/Step.lean ====
section
/-!
DEFINITION. One step of the core (spec/60_exceptions.md R392): the instruction boundary, then the
interrupt or the instruction at `CurPC`. What it calls is in Ops.lean and Dispatch.lean.
-/

namespace Sys2Proof.Machine

/-- Fetches, decodes and executes the instruction at `CurPC` (R392). -/
def State.runInstr (s : State) : Host.Outcome State Fault Refusal :=
  match s.fetchInstr with
  | .error e => s.stop e
  | .ok i => exec i s

/-- One step: at the boundary an interrupt in TASK mode is taken before the instruction is
fetched; otherwise the instruction runs (R380, R382, R392). -/
def step (s : State) : Host.Outcome State Fault Refusal :=
  if s.interrupted then .next s.boundary.takeInterrupt else s.boundary.runInstr

/-- `s` with the instruction whose bits are `w` (every bit from `nbits` on being 0) in memory at
`CurPC`, where `step` fetches its next instruction (notes/assumptions/17.md). -/
def State.withFetchWord (s : State) (nbits w : Nat) : State := s.loadAtPc (tableHalves nbits w)

end Sys2Proof.Machine
end

