-- ==== Sys2Proof/Safety.lean ====
section
/-!
DEFINITION. The terms in which claims about the machine are stated: the form of the state, the
access an instruction makes, a run without a model fault, and the end of a run
(spec/70_reset_and_hazards.md R415).
-/

namespace Sys2Proof.Machine

/-! ## The form of the state -/

/-- A list of addresses strictly rises and stays below 2^32. -/
def addrsRise : List Nat → Bool
  | [] => true
  | a :: l =>
    decide (a < 2 ^ 32) && (match l with
      | [] => true
      | b :: _ => decide (a < b)) && addrsRise l

/-- Every queued store is one whole access: 1, 2 or 4 bytes, at addresses below 2^32 (R69,
R70). -/
def queueWf (q : List PendingStore) : Bool :=
  q.all fun st => (st.length == 1 || st.length == 2 || st.length == 4)
    && st.all fun c => decide (c.1 < 2 ^ 32)

/-- Every byte that waits in the write queue has been stored to since the last FENCE. -/
def pendingStale (q : List PendingStore) (stale : List Nat) : Bool :=
  q.all fun st => st.all fun c => stale.contains c.1

/-- The form that every step keeps: memory in canonical form, whole stores in the queue, the
stale addresses rising, and every waiting byte among them. -/
def State.wf (s : State) : Bool :=
  Memory.wf s.mem && queueWf s.writeQueue && addrsRise s.stale
    && pendingStale s.writeQueue s.stale

/-! ## What an instruction does to memory -/

/-- The one data access of a load or store (R300): its effective address (R302 to R304), its
width and its direction; `none` for every other instruction, which makes none (R61). -/
def dataAccess (i : Instr) (s : State) : Option (Word × Size × AccessKind) :=
  match i with
  | .ldsbA a _ | .ldubA a _ => some (s.eaA a, .byte, .read)
  | .ldshA a _ | .lduhA a _ => some (s.eaA a, .half, .read)
  | .ldwA a _ => some (s.eaA a, .word, .read)
  | .stbA a _ => some (s.eaA a, .byte, .write)
  | .sthA a _ => some (s.eaA a, .half, .write)
  | .stwA a _ => some (s.eaA a, .word, .write)
  | .ldsbC _ imm | .ldsbCTpc imm | .ldubC _ imm | .ldubCTpc imm =>
    some (s.eaC imm, .byte, .read)
  | .ldshC _ imm | .ldshCTpc imm | .lduhC _ imm | .lduhCTpc imm =>
    some (s.eaC imm, .half, .read)
  | .ldwC _ imm | .ldwCTpc imm => some (s.eaC imm, .word, .read)
  | .stbC _ imm | .stbCTpc imm => some (s.eaC imm, .byte, .write)
  | .sthC _ imm | .sthCTpc imm => some (s.eaC imm, .half, .write)
  | .stwC _ imm | .stwCTpc imm => some (s.eaC imm, .word, .write)
  | .ldsbD a _ imm | .ldsbDTpc a imm | .ldubD a _ imm | .ldubDTpc a imm =>
    some (s.eaD a imm, .byte, .read)
  | .ldshD a _ imm | .ldshDTpc a imm | .lduhD a _ imm | .lduhDTpc a imm =>
    some (s.eaD a imm, .half, .read)
  | .ldwD a _ imm | .ldwDTpc a imm => some (s.eaD a imm, .word, .read)
  | .stbD a _ imm | .stbDTpc a imm => some (s.eaD a imm, .byte, .write)
  | .sthD a _ imm | .sthDTpc a imm => some (s.eaD a imm, .half, .write)
  | .stwD a _ imm | .stwDTpc a imm => some (s.eaD a imm, .word, .write)
  | _ => none

/-- The access passes the alignment check of R68 and `Translate` maps its address to `p`. -/
def Accessible (s : State) (ea : Word) (n : Size) (k : AccessKind) (p : Word) : Prop :=
  (ea.toNat % sizeBytes n = 0 ∨ s.cfg.misaligned = .asTheyLie)
    ∧ s.translate ea n k = .permitted p

/-- The access passes the alignment check of R68 and `Translate` refuses it (R67). -/
def Refused (s : State) (ea : Word) (n : Size) (k : AccessKind) : Prop :=
  (ea.toNat % sizeBytes n = 0 ∨ s.cfg.misaligned = .asTheyLie) ∧ s.translate ea n k = .refused

/-- The byte that the core sees at `(p + k) mod 2^32` (R63, R73). -/
def State.byteAt (s : State) (p k : Word) : Byte := s.readByte (p + k).toNat

/-- The halfword that the core sees at `p`, in `BYTE_ORDER` (R62). -/
def State.halfAt (s : State) (p : Word) : Half :=
  match s.cfg.byteOrder with
  | .little => s.byteAt p 1 ++ s.byteAt p 0
  | .big => s.byteAt p 0 ++ s.byteAt p 1

/-- The 32-bit value that the core sees at `p`, in `BYTE_ORDER` (R62). -/
def State.wordAt (s : State) (p : Word) : Word :=
  match s.cfg.byteOrder with
  | .little => s.byteAt p 3 ++ s.byteAt p 2 ++ s.byteAt p 1 ++ s.byteAt p 0
  | .big => s.byteAt p 0 ++ s.byteAt p 1 ++ s.byteAt p 2 ++ s.byteAt p 3

/-! ## What an instruction leaves alone -/

/-- `{v[31:1], 0}` (R35). -/
def evenPart (v : Word) : Word := v &&& ~~~1#32

/-- No byte of memory changes, neither for the core nor for any other observer, and nothing is
stored (R61). -/
def KeepsMemory (s t : State) : Prop :=
  (∀ a, t.readByte a = s.readByte a) ∧ t.mem = s.mem ∧ t.writeQueue = s.writeQueue
    ∧ t.stale = s.stale

/-- The environment's inputs and the parameters are as they were. -/
def KeepsEnvironment (s t : State) : Prop :=
  t.irq = s.irq ∧ t.drains = s.drains ∧ t.cfg = s.cfg

/-- The program counter of the mode that is not executing keeps its value (R36). -/
def KeepsOtherPc (s t : State) : Prop :=
  (s.mode = .task → t.spc = s.spc) ∧ (s.mode = .scheduler → t.tpc = s.tpc)

/-- The one effect of an instruction of `len` bytes is `x[d] <- v` (R12): a general register takes
the value, every other keeps its own and the current program counter advances (R14; that it wraps
is the spec's decision D11); or the current program counter takes the value with bit 0 dropped. -/
def WritesReg (s t : State) (len : Word) (d : Reg) (v : Word) : Prop :=
  (∀ g, t.gprs.read g = if d = .gp g then v else s.gprs.read g)
    ∧ t.curPc = (if d = .pc then evenPart v else s.curPc + len)
    ∧ t.mode = s.mode ∧ KeepsOtherPc s t ∧ KeepsMemory s t ∧ KeepsEnvironment s t

/-- The one effect of an instruction of `len` bytes is to set TPC by name, `xt[0] <- v` or
`xd[0xf] <- v` (R13): in TASK mode SPC keeps its value, and in SCHEDULER mode it advances (R14;
that it wraps is the spec's decision D11). -/
def WritesTpc (s t : State) (len v : Word) : Prop :=
  pcAddr t.tpc = evenPart v ∧ (s.mode = .task → t.spc = s.spc)
    ∧ (s.mode = .scheduler → t.curPc = s.curPc + len)
    ∧ t.gprs = s.gprs ∧ t.mode = s.mode ∧ KeepsMemory s t ∧ KeepsEnvironment s t

/-- The instruction's one effect is to leave the current program counter at `target`. -/
def OnlyJumps (s t : State) (target : Word) : Prop :=
  t.curPc = target ∧ t.gprs = s.gprs ∧ t.mode = s.mode ∧ KeepsOtherPc s t ∧ KeepsMemory s t
    ∧ KeepsEnvironment s t

/-- Everything but the mode is as it was (R376, R380). -/
def OnlyMode (s t : State) (m : Mode) : Prop :=
  t.mode = m ∧ t.gprs = s.gprs ∧ t.tpc = s.tpc ∧ t.spc = s.spc ∧ KeepsMemory s t
    ∧ KeepsEnvironment s t

/-- A store of the low bits of `v` at the physical address `p`, by an instruction of `len`
bytes: the stored bytes read as `v`, every other byte as before, no register changes but the
current program counter, which advances (R64, R300). The store stands in the write queue behind
the earlier ones, memory as other observers see it is unchanged (R45, R74), and the stored bytes
and no others have become stale for instruction fetch (R79). -/
def Stores (s t : State) (len : Word) (n : Size) (p v : Word) : Prop :=
  (match n with
    | .byte => t.byteAt p 0 = v.extractLsb' 0 8
    | .half => t.halfAt p = v.extractLsb' 0 16
    | .word => t.wordAt p = v)
    ∧ (∀ a, (∀ k ∈ sizeOffsets n, a ≠ (p + k).toNat) → t.readByte a = s.readByte a)
    ∧ (∃ st, t.writeQueue = s.writeQueue ++ [st]
        ∧ st.map Prod.fst = (sizeOffsets n).map fun k => (p + k).toNat)
    ∧ t.mem = s.mem
    ∧ (∀ a, a ∈ t.stale ↔ a ∈ s.stale ∨ ∃ k ∈ sizeOffsets n, a = (p + k).toNat)
    ∧ t.gprs = s.gprs ∧ t.curPc = s.curPc + len ∧ t.mode = s.mode ∧ KeepsOtherPc s t
    ∧ KeepsEnvironment s t

/-- An outcome with its next state, if it has one, changed. -/
def mapNext (f : State → State) (r : Result) : Result :=
  match r with
  | .next t => .next (f t)
  | .fault e => .fault e
  | .refused e => .refused e

/-- The instructions that write TPC by name: XMOV, LIT and the loads with TPC as destination
(R39). -/
def writesTpcByName (i : Instr) : Bool :=
  match i with
  | .xmov _ .pc | .lit .pc _ => true
  | .ldsbCTpc _ | .ldubCTpc _ | .ldshCTpc _ | .lduhCTpc _ | .ldwCTpc _ => true
  | .ldsbDTpc _ _ | .ldubDTpc _ _ | .ldshDTpc _ _ | .lduhDTpc _ _ | .ldwDTpc _ _ => true
  | _ => false

/-- The instructions that read TPC by name: XMOV with FIELD_A = 0 and the stores of TPC (R39). -/
def readsTpcByName (i : Instr) : Bool :=
  match i with
  | .xmov .pc _ => true
  | .stbCTpc _ | .sthCTpc _ | .stwCTpc _ | .stbDTpc _ _ | .sthDTpc _ _ | .stwDTpc _ _ => true
  | _ => false

/-- The two states differ only in which of the core's stores have left the write queue, and in
the environment's choice of when they will: the core sees one machine (R74, R75). -/
def SameForCore (s t : State) : Prop :=
  t.gprs = s.gprs ∧ t.tpc = s.tpc ∧ t.spc = s.spc ∧ t.mode = s.mode ∧ t.view = s.view
    ∧ t.stale = s.stale ∧ t.irq = s.irq ∧ t.cfg = s.cfg

/-- The two outcomes are next states that the core cannot tell apart, or the same stop. -/
def SameOutcome (r q : Result) : Prop :=
  match r, q with
  | .next s, .next t => SameForCore s t
  | .fault e, .fault f => e = f
  | .refused e, .refused f => e = f
  | _, _ => False

/-- The halfword `h` can be fetched at `a`: `Translate` permits it, its bytes are there, and no
byte of it is stale unless fetch is coherent (R65, R79). -/
def Fetchable (s : State) (a : Word) (h : Half) : Prop :=
  ∃ p, s.translate a .half .fetch = .permitted p ∧ s.halfAt p = h
    ∧ (s.cfg.ifetchCoherent = true ∨ (p.toNat ∉ s.stale ∧ (p + 1).toNat ∉ s.stale))

/-- The address of halfword number `k` of the instruction at `CurPC` (R65). -/
def State.halfAddr (s : State) (k : Nat) : Word := s.curPc + BitVec.ofNat 32 (2 * k)

/-- Halfword number `k` of instruction `i` is one that executing `i` fetches: INST always,
FIELD_I for a defined instruction only (R65, D29). -/
def fetches (i : Instr) (k : Nat) (h : Half) : Prop :=
  (encode i)[k]? = some h ∧ (i.isReserved = true → k = 0)

/-! ## Runs -/

/-- The outcome is a next state. -/
def completes (r : Result) : Bool :=
  match r with
  | .next _ => true
  | .fault _ => false
  | .refused _ => false

/-- `k` steps from `s` meet no model fault: every one of them answers a next state. -/
def safeFor : Nat → State → Bool
  | 0, _ => true
  | k + 1, s =>
    match step s with
    | .next t => safeFor k t
    | .fault _ => false
    | .refused _ => false

/-- The end of a run as the spec defines it for programs: SCHEDULER mode at an unconditional jump
to itself, WOI or `BEQ PC, PC` with FIELD_I = 1 (R415, D38). It is a convention: the hardware
goes on executing that instruction. R415 calls both a jump to itself; with a PC_READ_BIAS other
than 0, WOI is none (R177), nor is the branch if its base moves with the bias (D4,
notes/assumptions/7.md), and R415 does not say what holds there. DESIGN CHOICE, unsafe for those
settings (notes/assumptions/27.md): both count as an end whatever the bias is. -/
def endOfRun (s : State) : Bool :=
  s.mode == .scheduler
    && (match s.fetchInstr with
        | .ok i => i == .woi || i == .beq .pc .pc 0 true
        | .error _ => false)

end Sys2Proof.Machine
end

