-- ==== Sys2Proof/Certificates/Slice0/Obligations.lean ====
section
/-!
DEFINITION. The statements for the provers: what the decoder and the encoder owe each other, what
each instruction does to each piece of state, how the exceptions, the interrupt and the mode
switches behave, and what every step keeps. OBLIGATIONS.json names the rule behind each.

A register instruction's statement has the words of the instruction first, where its rule gives
them, and then says that `exec` answers a next state and what that state holds. `WritesReg`,
`WritesTpc`, `OnlyJumps`, `OnlyMode` and `Stores` (Sys2Proof/Safety.lean) carry the frame: every
other register, memory through `readByte`, the other program counter and the parameters.
-/

section

open Sys2Proof Sys2Proof.Machine


/-! ## Encoding -/

/-- Decoding the words of a well-formed instruction gives the instruction and leaves what follows
it, from halfwords and from bytes in either order (R100 to R107, R65). That FIELD_I[15:0] stands
before FIELD_I[31:16] is the spec's decision D2, the little-endian default D1, and the big-endian
layout, each halfword with its high byte first, notes/assumptions/6.md (DEDUCED, unsafe for
big-endian settings). -/
def Obligations.DecodeOfEncode : Prop :=
  ∀ (i : Instr) (rest : List Half), i.wf = true →
    decode (encode i ++ rest) = .ok (i, rest)
      ∧ ∀ o, decodeBytes o ((encode i ++ rest).flatMap (bytesOfHalf o)) = .ok (i, rest)

/-- Every value of INST decodes to a well-formed instruction whose INST it is, and a defined
48-bit instruction gives its FIELD_I back: no value is shared by two rows (R100, R108). -/
def Obligations.EncodeOfDecode : Prop :=
  ∀ (inst : Half) (fieldI : Word),
    (decodeWord inst fieldI).wf = true ∧ encodeInst (decodeWord inst fieldI) = inst
      ∧ ((decodeWord inst fieldI).isReserved = false → (decodeWord inst fieldI).length = 6 →
          (decodeWord inst fieldI).fieldI = fieldI)

/-- The reserved values of INST are those of the fourteen patterns of R359 and no others. Which
values those are rests on the spec's decisions D6 (an SII row wins), D7 (the nine values 0x0nn0)
and D8 (0x1fAD), followed in notes/assumptions/23.md. -/
def Obligations.ReservedPatterns : Prop :=
  ∀ (inst : Half) (fieldI : Word),
    let c := (inst.extractLsb' 12 4).toNat
    let b := (inst.extractLsb' 8 4).toNat
    let a := (inst.extractLsb' 4 4).toNat
    let d := (inst.extractLsb' 0 4).toNat
    (decodeWord inst fieldI).isReserved = true ↔
      (c = 0 ∧ b = a ∧ 4 ≤ a ∧ a ≤ 12 ∧ d = 0)
        ∨ (9 ≤ c ∧ c ≤ 14 ∧ b ≤ 14 ∧ a ≤ 14 ∧ d = 0)
        ∨ (9 ≤ c ∧ c ≤ 14 ∧ b = 0 ∧ a = 0 ∧ 1 ≤ d ∧ d ≤ 14)
        ∨ (12 ≤ c ∧ c ≤ 14 ∧ b ≤ 14 ∧ a = 15 ∧ d = 0)
        ∨ (12 ≤ c ∧ c ≤ 14 ∧ b = 0 ∧ a = 15 ∧ 1 ≤ d ∧ d ≤ 14)
        ∨ ((c ≤ 2 ∨ c = 4 ∨ (8 ≤ c ∧ c ≤ 12) ∨ c = 14) ∧ b = 15 ∧ a ≤ 14 ∧ d ≤ 14)
        ∨ (c = 13 ∧ b = 15 ∧ a ≤ 14 ∧ d = 0)
        ∨ (c = 13 ∧ b = 15 ∧ a = 0 ∧ 1 ≤ d ∧ d ≤ 14)
        ∨ (c = 0 ∧ b ≤ 14 ∧ 6 ≤ a ∧ a ≤ 14 ∧ d = 15)
        ∨ (7 ≤ c ∧ c ≤ 12 ∧ b ≤ 14 ∧ a ≤ 14 ∧ d = 15)
        ∨ (2 ≤ c ∧ c ≤ 14 ∧ b = 15 ∧ a = 15 ∧ d ≤ 14)
        ∨ (c ≤ 14 ∧ b = 15 ∧ a = 15 ∧ d = 15)
        ∨ (c = 15 ∧ b ≤ 7 ∧ d = 15)
        ∨ (c = 15 ∧ b ≤ 7 ∧ a = 15 ∧ d ≤ 14)

/-- The length of every instruction, reserved ones included, is 6 bytes when the condition of R92
holds of INST and 2 otherwise; the decoder asks for FIELD_I only when it holds. -/
def Obligations.LengthFromInst : Prop :=
  ∀ (inst : Half) (fieldI : Word),
    let long := inst.extractLsb' 11 5 = 0b11111#5 ∨ inst.extractLsb' 8 4 = 0xf#4
      ∨ inst.extractLsb' 4 4 = 0xf#4 ∨ inst.extractLsb' 0 4 = 0xf#4
    (decodeWord inst fieldI).length = (if long then 6 else 2)
      ∧ 2 * (encode (decodeWord inst fieldI)).length = (if long then 6 else 2)
      ∧ (¬ long → ∀ f, decodeInst inst ≠ .long f)

/-- A few words written out from the encodings of the opcode table decode to their instructions,
one of each format of R96. -/
def Obligations.SampleWords : Prop :=
  decode [0x0123] = .ok (.xor (.gp .r1) (.gp .r2) (.gp .r3), [])
    ∧ decode [0x41f3, 0x5678, 0x1234] = .ok (.addi (.gp .r1) (.gp .r3) 0x12345678, [])
    ∧ decode [0x3f23, 0x000a, 0x0000] = .ok (.isub (.gp .r2) (.gp .r3) 10, [])
    ∧ decode [0x1ff0, 0x4445, 0x0000] = .ok (.lit .pc 0x4445, [])
    ∧ decode [0x312f, 0x0101, 0x0000] = .ok (.blts (.gp .r1) (.gp .r2) 0x80 true, [])
    ∧ decode [0xef2f, 0x2000, 0x0000] = .ok (.bbs .xe (.gp .r2) 0x1000 false, [])
    ∧ decode [0x31ff, 0x0101, 0x0000] = .ok (.bbc .x3 (.gp .r1) 0x80 true, [])
    ∧ decode [0xf723] = .ok (.stwA (.gp .r2) (.gp .r3), [])
    ∧ decode [0xfcff, 0x3000, 0x0000] = .ok (.ldwCTpc 0x3000, [])
    ∧ decode [0xff23, 0x0004, 0x0000] = .ok (.stwD (.gp .r2) (.gp .r3) 4, [])
    ∧ decode [0x0440] = .ok (.siiXorHole .x4, [])
    ∧ decode [0x0dd0] = .ok (.fence, [])

/-! ## ALU form A -/

/-- XOR, OR and AND: the words, the result in `x[D]` from `x[B]` and `x[A]`, and nothing else
(R131 to R133). The encodings with `D = 0` and `B = A` are no XOR, and 0x1000 is no OR. The
advance of the program counter wraps by decision D11, here and below. -/
def Obligations.LogicFormA : Prop :=
  ∀ (b a d : Reg) (s : State),
    (encode (.xor b a d) = [packInst .x0 b.nib a.nib d.nib]
      ∧ ∃ t, exec (.xor b a d) s = .next t
        ∧ WritesReg s t 2 d (s.readX b ^^^ s.readX a))
    ∧ (encode (.or b a d) = [packInst .x1 b.nib a.nib d.nib]
      ∧ ∃ t, exec (.or b a d) s = .next t
        ∧ WritesReg s t 2 d (s.readX b ||| s.readX a))
    ∧ (encode (.and b a d) = [packInst .x2 b.nib a.nib d.nib]
      ∧ ∃ t, exec (.and b a d) s = .next t
        ∧ WritesReg s t 2 d (s.readX b &&& s.readX a))
    ∧ ((Instr.xor b a d).wf = false ↔ d = .pc ∧ b = a)
    ∧ ((Instr.or b a d).wf = false ↔ d = .pc ∧ b = .pc ∧ a = .pc)

/-- SUB and ADD: the exact difference and sum, modulo 2^32 (R134, R135; the advance: D11). -/
def Obligations.AddSubFormA : Prop :=
  ∀ (b a d : Reg) (s : State),
    (encode (.sub b a d) = [packInst .x3 b.nib a.nib d.nib]
      ∧ ∃ t, exec (.sub b a d) s = .next t
        ∧ WritesReg s t 2 d (BitVec.ofInt 32 (((s.readX b).toNat : Int) - (s.readX a).toNat)))
    ∧ (encode (.add b a d) = [packInst .x4 b.nib a.nib d.nib]
      ∧ ∃ t, exec (.add b a d) s = .next t
        ∧ WritesReg s t 2 d (BitVec.ofNat 32 ((s.readX b).toNat + (s.readX a).toNat)))

/-- SHL, SHR and SAR by `n = SHIFT_AMOUNT(x[A])` positions: `x[B] * 2^n`, `x[B] div 2^n` and
`floor(signed(x[B]) / 2^n)`, modulo 2^32 (R136 to R138; the advance: D11). What `n` is,
ShiftAmountLaw says. -/
def Obligations.ShiftFormA : Prop :=
  ∀ (b a d : Reg) (s : State),
    let n := shiftAmount s.cfg.shiftPolicy (s.readX a)
    (encode (.shl b a d) = [packInst .x5 b.nib a.nib d.nib]
      ∧ ∃ t, exec (.shl b a d) s = .next t
        ∧ WritesReg s t 2 d (BitVec.ofNat 32 ((s.readX b).toNat * 2 ^ n)))
    ∧ (encode (.shr b a d) = [packInst .x6 b.nib a.nib d.nib]
      ∧ ∃ t, exec (.shr b a d) s = .next t
        ∧ WritesReg s t 2 d (BitVec.ofNat 32 ((s.readX b).toNat / 2 ^ n)))
    ∧ (encode (.sar b a d) = [packInst .x7 b.nib a.nib d.nib]
      ∧ ∃ t, exec (.sar b a d) s = .next t
        ∧ WritesReg s t 2 d (BitVec.ofInt 32 ((s.readX b).toInt / 2 ^ n)))

/-- SHIFT_AMOUNT: an amount operand of 0 to 31 is the number of positions under every policy; for
larger ones the default takes the low five bits, and the saturating policy shifts every bit out
(R153; the default is the spec's decision D5, the other policies notes/assumptions/8.md). -/
def Obligations.ShiftAmountLaw : Prop :=
  ∀ v x : Word,
    (v.toNat < 32 → ∀ p, shiftAmount p v = v.toNat)
      ∧ shiftAmount .lowFive v = v.toNat % 32
      ∧ (32 ≤ v.toNat → shiftLeft .saturate x v = 0 ∧ shiftRight .saturate x v = 0
          ∧ shiftRightSigned .saturate x v = if x.toInt < 0 then 0xffffffff else 0)

/-- MULS, MULU, MULHS and MULHU: the lower or upper half of the exact signed or unsigned product
(R139 to R142). That MULHU is unsigned is the resolution C5 of spec/90_conflicts.md, and the
advance is the spec's decision D11. -/
def Obligations.MulFormA : Prop :=
  ∀ (b a d : Gpr) (ar dr : Reg) (s : State),
    (encode (.muls b ar dr) = [packInst .x8 (Reg.gp b).nib ar.nib dr.nib]
      ∧ ∃ t, exec (.muls b ar dr) s = .next t
        ∧ WritesReg s t 2 dr
            (BitVec.ofInt 32 ((s.gprs.read b).toInt * (s.readX ar).toInt)))
    ∧ (encode (.mulu b a d) = [packInst .x9 (Reg.gp b).nib (Reg.gp a).nib (Reg.gp d).nib]
      ∧ ∃ t, exec (.mulu b a d) s = .next t
        ∧ WritesReg s t 2 (.gp d)
            (BitVec.ofNat 32 ((s.gprs.read b).toNat * (s.gprs.read a).toNat)))
    ∧ (encode (.mulhs b a d) = [packInst .xa (Reg.gp b).nib (Reg.gp a).nib (Reg.gp d).nib]
      ∧ ∃ t, exec (.mulhs b a d) s = .next t
        ∧ WritesReg s t 2 (.gp d)
            (BitVec.ofInt 32 ((s.gprs.read b).toInt * (s.gprs.read a).toInt / 2 ^ 32)))
    ∧ (encode (.mulhu b a d) = [packInst .xb (Reg.gp b).nib (Reg.gp a).nib (Reg.gp d).nib]
      ∧ ∃ t, exec (.mulhu b a d) s = .next t
        ∧ WritesReg s t 2 (.gp d)
            (BitVec.ofNat 32 ((s.gprs.read b).toNat * (s.gprs.read a).toNat / 2 ^ 32)))

/-- INC, DEC, NEG and NOT of one general register (R143, R144, R145, R147; the advance: D11). -/
def Obligations.UnaryFormA : Prop :=
  ∀ (r d : Gpr) (s : State),
    (encode (.inc r d) = [packInst .x9 .x0 (Reg.gp r).nib (Reg.gp d).nib]
      ∧ ∃ t, exec (.inc r d) s = .next t
        ∧ WritesReg s t 2 (.gp d) (BitVec.ofNat 32 ((s.gprs.read r).toNat + 1)))
    ∧ (encode (.dec r d) = [packInst .x9 (Reg.gp r).nib .x0 (Reg.gp d).nib]
      ∧ ∃ t, exec (.dec r d) s = .next t
        ∧ WritesReg s t 2 (.gp d) (BitVec.ofInt 32 (((s.gprs.read r).toNat : Int) - 1)))
    ∧ (encode (.neg r d) = [packInst .xa .x0 (Reg.gp r).nib (Reg.gp d).nib]
      ∧ ∃ t, exec (.neg r d) s = .next t
        ∧ WritesReg s t 2 (.gp d) (BitVec.ofInt 32 (-(s.gprs.read r).toInt)))
    ∧ (encode (.not r d) = [packInst .xa (Reg.gp r).nib .x0 (Reg.gp d).nib]
      ∧ ∃ t, exec (.not r d) s = .next t
        ∧ WritesReg s t 2 (.gp d) (BitVec.ofNat 32 (2 ^ 32 - 1 - (s.gprs.read r).toNat)))

/-- BSWAP, WSWAP, BSI and WSI: the bytes or halfwords exchanged, or the low 8 or 16 bits
sign-extended (R148 to R151). That BSI is the 8-bit and WSI the 16-bit extension is the resolution
C6 of spec/90_conflicts.md, and the advance is the spec's decision D11. -/
def Obligations.SwapAndExtend : Prop :=
  ∀ (r d : Gpr) (s : State),
    (encode (.bswap r d) = [packInst .xb .x0 (Reg.gp r).nib (Reg.gp d).nib]
      ∧ ∃ t, exec (.bswap r d) s = .next t
        ∧ WritesReg s t 2 (.gp d) ((s.gprs.read r).extractLsb 7 0 ++
            (s.gprs.read r).extractLsb 15 8
            ++ (s.gprs.read r).extractLsb 23 16 ++ (s.gprs.read r).extractLsb 31 24))
    ∧ (encode (.wswap r d) = [packInst .xb (Reg.gp r).nib .x0 (Reg.gp d).nib]
      ∧ ∃ t, exec (.wswap r d) s = .next t
        ∧ WritesReg s t 2 (.gp d) ((s.gprs.read r).extractLsb 15 0 ++
            (s.gprs.read r).extractLsb 31 16))
    ∧ (encode (.bsi r d) = [packInst .xc .x0 (Reg.gp r).nib (Reg.gp d).nib]
      ∧ ∃ t, exec (.bsi r d) s = .next t
        ∧ WritesReg s t 2 (.gp d) (((s.gprs.read r).setWidth 8).signExtend 32))
    ∧ (encode (.wsi r d) = [packInst .xc (Reg.gp r).nib .x0 (Reg.gp d).nib]
      ∧ ∃ t, exec (.wsi r d) s = .next t
        ∧ WritesReg s t 2 (.gp d) (((s.gprs.read r).setWidth 16).signExtend 32))

/-- XMOV: `xt[D] <- xt[A]`, index 0 naming TPC in both modes; in TASK mode TPC is the current
program counter and reads as index 0 does (R146, R13; what index 0 reads is the spec's decision
D3, the advance D11, the name C14 of spec/90_conflicts.md). -/
def Obligations.XmovBothModes : Prop :=
  ∀ (a d : Reg) (s : State),
    encode (.xmov a d) = [packInst .x8 .x0 a.nib d.nib]
      ∧ ∃ t v, exec (.xmov a d) s = .next t
        ∧ (∀ g, a = .gp g → v = s.gprs.read g)
        ∧ (a = .pc → s.mode = .task → v = s.readX .pc)
        ∧ (a = .pc → s.mode = .scheduler → v = pcAddr s.tpc)
        ∧ (∀ g, d = .gp g → WritesReg s t 2 (.gp g) v)
        ∧ (d = .pc → WritesTpc s t 2 v)

/-- A read of index 0 is the address of the current instruction plus PC_READ_BIAS with bit 0
clear, and with the default bias the address itself; R1 .. Re read as they stand (R12, R37; the
default is the spec's decision D3). -/
def Obligations.ReadIndexZero : Prop :=
  ∀ (s : State) (g : Gpr),
    s.readX .pc = evenPart (s.curPc + s.cfg.pcReadBias)
      ∧ (s.cfg.pcReadBias = 0 → s.readX .pc = s.curPc)
      ∧ s.readX (.gp g) = s.gprs.read g
      ∧ s.curPc = (if s.mode = .task then pcAddr s.tpc else pcAddr s.spc)

/-! ## ALU forms B and C, load immediate -/

/-- XORI, ORI, ANDI, SUBI and ADDI: form A with VALUE in the place of `x[A]` (R191, R193, R195 to
R197; the advance: D11). -/
def Obligations.LogicAddFormB : Prop :=
  ∀ (b d : Reg) (imm : Word) (s : State),
    (encode (.xori b d imm)
          = [packInst .x0 b.nib .xf d.nib, imm.extractLsb' 0 16, imm.extractLsb' 16 16]
      ∧ ∃ t, exec (.xori b d imm) s = .next t
        ∧ WritesReg s t 6 d (s.readX b ^^^ imm))
    ∧ (encode (.ori b d imm)
          = [packInst .x1 b.nib .xf d.nib, imm.extractLsb' 0 16, imm.extractLsb' 16 16]
      ∧ ∃ t, exec (.ori b d imm) s = .next t
        ∧ WritesReg s t 6 d (s.readX b ||| imm))
    ∧ (encode (.andi b d imm)
          = [packInst .x2 b.nib .xf d.nib, imm.extractLsb' 0 16, imm.extractLsb' 16 16]
      ∧ ∃ t, exec (.andi b d imm) s = .next t
        ∧ WritesReg s t 6 d (s.readX b &&& imm))
    ∧ (encode (.subi b d imm)
          = [packInst .x3 b.nib .xf d.nib, imm.extractLsb' 0 16, imm.extractLsb' 16 16]
      ∧ ∃ t, exec (.subi b d imm) s = .next t
        ∧ WritesReg s t 6 d (BitVec.ofInt 32 (((s.readX b).toNat : Int) - imm.toNat)))
    ∧ (encode (.addi b d imm)
          = [packInst .x4 b.nib .xf d.nib, imm.extractLsb' 0 16, imm.extractLsb' 16 16]
      ∧ ∃ t, exec (.addi b d imm) s = .next t
        ∧ WritesReg s t 6 d (BitVec.ofNat 32 ((s.readX b).toNat + imm.toNat)))

/-- SHLI, SHRI and SARI by `n = SHIFT_AMOUNT(VALUE)` positions (R198 to R200; the advance: D11);
ShiftAmountLaw says what `n` is. -/
def Obligations.ShiftFormB : Prop :=
  ∀ (b d : Reg) (imm : Word) (s : State),
    let n := shiftAmount s.cfg.shiftPolicy imm
    (encode (.shli b d imm)
          = [packInst .x5 b.nib .xf d.nib, imm.extractLsb' 0 16, imm.extractLsb' 16 16]
      ∧ ∃ t, exec (.shli b d imm) s = .next t
        ∧ WritesReg s t 6 d (BitVec.ofNat 32 ((s.readX b).toNat * 2 ^ n)))
    ∧ (encode (.shri b d imm)
          = [packInst .x6 b.nib .xf d.nib, imm.extractLsb' 0 16, imm.extractLsb' 16 16]
      ∧ ∃ t, exec (.shri b d imm) s = .next t
        ∧ WritesReg s t 6 d (BitVec.ofNat 32 ((s.readX b).toNat / 2 ^ n)))
    ∧ (encode (.sari b d imm)
          = [packInst .x7 b.nib .xf d.nib, imm.extractLsb' 0 16, imm.extractLsb' 16 16]
      ∧ ∃ t, exec (.sari b d imm) s = .next t
        ∧ WritesReg s t 6 d (BitVec.ofInt 32 ((s.readX b).toInt / 2 ^ n)))

/-- MULSI, MULUI, MULHSI and MULHUI: the halves of the product of `x[B]` and VALUE (R201 to R204).
That MULHSI reads VALUE as signed is the spec's decision D26, and the advance D11. -/
def Obligations.MulFormB : Prop :=
  ∀ (b d : Reg) (imm : Word) (s : State),
    (encode (.mulsi b d imm)
          = [packInst .x8 b.nib .xf d.nib, imm.extractLsb' 0 16, imm.extractLsb' 16 16]
      ∧ ∃ t, exec (.mulsi b d imm) s = .next t
        ∧ WritesReg s t 6 d (BitVec.ofInt 32 ((s.readX b).toInt * imm.toInt)))
    ∧ (encode (.mului b d imm)
          = [packInst .x9 b.nib .xf d.nib, imm.extractLsb' 0 16, imm.extractLsb' 16 16]
      ∧ ∃ t, exec (.mului b d imm) s = .next t
        ∧ WritesReg s t 6 d (BitVec.ofNat 32 ((s.readX b).toNat * imm.toNat)))
    ∧ (encode (.mulhsi b d imm)
          = [packInst .xa b.nib .xf d.nib, imm.extractLsb' 0 16, imm.extractLsb' 16 16]
      ∧ ∃ t, exec (.mulhsi b d imm) s = .next t
        ∧ WritesReg s t 6 d (BitVec.ofInt 32 ((s.readX b).toInt * imm.toInt / 2 ^ 32)))
    ∧ (encode (.mulhui b d imm)
          = [packInst .xb b.nib .xf d.nib, imm.extractLsb' 0 16, imm.extractLsb' 16 16]
      ∧ ∃ t, exec (.mulhui b d imm) s = .next t
        ∧ WritesReg s t 6 d (BitVec.ofNat 32 ((s.readX b).toNat * imm.toNat / 2 ^ 32)))

/-- LI writes VALUE to `x[D]`, index 0 being the current mode's program counter; LIT writes it to
`xt[D]`, index 0 being TPC (R192, R194). That group CD holds these two and is not all reserved is
the resolution C10 of spec/90_conflicts.md, and the advance, SPC's in SCHEDULER mode included, is
the spec's decision D11. -/
def Obligations.LoadImmediate : Prop :=
  ∀ (d : Reg) (g : Gpr) (imm : Word) (s : State),
    (encode (.li d imm)
          = [packInst .x0 .xf .xf d.nib, imm.extractLsb' 0 16, imm.extractLsb' 16 16]
      ∧ ∃ t, exec (.li d imm) s = .next t
        ∧ WritesReg s t 6 d imm)
    ∧ (encode (.lit (.gp g) imm)
          = [packInst .x1 .xf .xf (Reg.gp g).nib, imm.extractLsb' 0 16, imm.extractLsb' 16 16]
      ∧ ∃ t, exec (.lit (.gp g) imm) s = .next t
        ∧ WritesReg s t 6 (.gp g) imm)
    ∧ (encode (.lit .pc imm)
          = [packInst .x1 .xf .xf .x0, imm.extractLsb' 0 16, imm.extractLsb' 16 16]
      ∧ ∃ t, exec (.lit .pc imm) s = .next t
        ∧ WritesTpc s t 6 imm)

/-- ISUB, ISHL, ISHR and ISAR: VALUE on the left, `x[A]` on the right; opcode 5 shifts left and 6
right by spec/90_conflicts.md C8 (R221 to R224; the advance: D11). -/
def Obligations.FormC : Prop :=
  ∀ (a d : Reg) (imm : Word) (s : State),
    let n := shiftAmount s.cfg.shiftPolicy (s.readX a)
    (encode (.isub a d imm)
          = [packInst .x3 .xf a.nib d.nib, imm.extractLsb' 0 16, imm.extractLsb' 16 16]
      ∧ ∃ t, exec (.isub a d imm) s = .next t
        ∧ WritesReg s t 6 d (BitVec.ofInt 32 ((imm.toNat : Int) - (s.readX a).toNat)))
    ∧ (encode (.ishl a d imm)
          = [packInst .x5 .xf a.nib d.nib, imm.extractLsb' 0 16, imm.extractLsb' 16 16]
      ∧ ∃ t, exec (.ishl a d imm) s = .next t
        ∧ WritesReg s t 6 d (BitVec.ofNat 32 (imm.toNat * 2 ^ n)))
    ∧ (encode (.ishr a d imm)
          = [packInst .x6 .xf a.nib d.nib, imm.extractLsb' 0 16, imm.extractLsb' 16 16]
      ∧ ∃ t, exec (.ishr a d imm) s = .next t
        ∧ WritesReg s t 6 d (BitVec.ofNat 32 (imm.toNat / 2 ^ n)))
    ∧ (encode (.isar a d imm)
          = [packInst .x7 .xf a.nib d.nib, imm.extractLsb' 0 16, imm.extractLsb' 16 16]
      ∧ ∃ t, exec (.isar a d imm) s = .next t
        ∧ WritesReg s t 6 d (BitVec.ofInt 32 (imm.toInt / 2 ^ n)))

/-- Bit 0 of every program counter reads as 0, and a write of any value, odd ones included, stores
it with bit 0 dropped and raises nothing: through index 0 in the current mode (LI), and by name
(LIT) (R35). That SPC as well as TPC drops bit 0 is the spec's decision D27 (R36), and that 0x0ff0
and 0x1ff0 are LI and LIT is C10 of spec/90_conflicts.md. -/
def Obligations.PcDropsBitZero : Prop :=
  ∀ (s : State) (v : Word),
    (pcAddr s.tpc).getLsbD 0 = false ∧ (pcAddr s.spc).getLsbD 0 = false
      ∧ (s.readX .pc).getLsbD 0 = false
      ∧ (∃ t, exec (.li .pc v) s = .next t ∧ t.curPc.getLsbD 0 = false
          ∧ ∀ k, 1 ≤ k → k < 32 → t.curPc.getLsbD k = v.getLsbD k)
      ∧ (∃ t, exec (.lit .pc v) s = .next t ∧ (pcAddr t.tpc).getLsbD 0 = false
          ∧ ∀ k, 1 ≤ k → k < 32 → (pcAddr t.tpc).getLsbD k = v.getLsbD k)

/-- The three pseudo-instructions of R114, from their words to their effect. 0x1111 changes no
register; 0x000z leaves 0 in R_z whatever the program counter reads as, and 0x0000 is FILL; 0x1ssz
copies `x[s]` to R_z, with s = 0 the program counter as it reads, and with z = 0 jumps to R_s with
bit 0 dropped, and 0x1000 is WOI (R114, R131, R132; the jump R12, R36). That NOP and every copy
complete in every state, where R49 would have a read of an unwritten register fault, is the model's
choice (DESIGN CHOICE, notes/assumptions/1.md); what index 0 reads as is the spec's decision D3
(notes/assumptions/7.md), and that a jump drops bit 0 of SPC as of TPC is D27. -/
def Obligations.PseudoInstructions : Prop :=
  ∀ (z : Gpr) (src : Reg) (r : Gpr) (s : State),
    (decode [0x1111] = .ok (.or (.gp .r1) (.gp .r1) (.gp .r1), [])
      ∧ ∃ t, exec (.or (.gp .r1) (.gp .r1) (.gp .r1)) s = .next t
        ∧ t.gprs = s.gprs ∧ t.mode = s.mode ∧ KeepsOtherPc s t ∧ KeepsMemory s t
        ∧ KeepsEnvironment s t)
    ∧ (decode [packInst .x0 .x0 .x0 (Reg.gp z).nib] = .ok (.xor .pc .pc (.gp z), [])
      ∧ decode [0x0000] = .ok (.fill, [])
      ∧ ∃ t, exec (.xor .pc .pc (.gp z)) s = .next t
        ∧ (∀ g, t.gprs.read g = if g = z then 0 else s.gprs.read g)
        ∧ t.mode = s.mode ∧ KeepsOtherPc s t ∧ KeepsMemory s t ∧ KeepsEnvironment s t)
    ∧ (decode [packInst .x1 src.nib src.nib (Reg.gp z).nib] = .ok (.or src src (.gp z), [])
      ∧ decode [0x1000] = .ok (.woi, [])
      ∧ ∃ t, exec (.or src src (.gp z)) s = .next t
        ∧ (∀ g, t.gprs.read g = if g = z then s.readX src else s.gprs.read g)
        ∧ t.mode = s.mode ∧ KeepsOtherPc s t ∧ KeepsMemory s t ∧ KeepsEnvironment s t)
    ∧ (decode [packInst .x1 (Reg.gp r).nib (Reg.gp r).nib .x0]
          = .ok (.or (.gp r) (.gp r) .pc, [])
      ∧ ∃ t, exec (.or (.gp r) (.gp r) .pc) s = .next t
        ∧ OnlyJumps s t (evenPart (s.gprs.read r)))

/-! ## Floating point -/

/-- The eleven floating-point arithmetic instructions: for every operand they raise nothing, and
their one effect is the write of what FP returns to a general register (R236 to R246, R248). FP as
uninterpreted functions, the rounding of FTOI inside FP.f2i, is the spec's decisions D9 and D31
and notes/assumptions/9.md; that IFSUB subtracts R_A is C9 of spec/90_conflicts.md; the advance is
D11. -/
def Obligations.FloatArithmetic : Prop :=
  ∀ (b a d : Gpr) (imm : Word) (s : State),
    (encode (.fadd b a d) = [packInst .xc (Reg.gp b).nib (Reg.gp a).nib (Reg.gp d).nib]
      ∧ ∃ t, exec (.fadd b a d) s = .next t
        ∧ WritesReg s t 2 (.gp d) (FP.add (s.gprs.read b) (s.gprs.read a)))
    ∧ (encode (.fsub b a d) = [packInst .xd (Reg.gp b).nib (Reg.gp a).nib (Reg.gp d).nib]
      ∧ ∃ t, exec (.fsub b a d) s = .next t
        ∧ WritesReg s t 2 (.gp d) (FP.sub (s.gprs.read b) (s.gprs.read a)))
    ∧ (encode (.fmul b a d) = [packInst .xe (Reg.gp b).nib (Reg.gp a).nib (Reg.gp d).nib]
      ∧ ∃ t, exec (.fmul b a d) s = .next t
        ∧ WritesReg s t 2 (.gp d) (FP.mul (s.gprs.read b) (s.gprs.read a)))
    ∧ (encode (.itof b d) = [packInst .xd (Reg.gp b).nib .x0 (Reg.gp d).nib]
      ∧ ∃ t, exec (.itof b d) s = .next t
        ∧ WritesReg s t 2 (.gp d) (FP.i2f (s.gprs.read b)))
    ∧ (encode (.ftoi a d) = [packInst .xd .x0 (Reg.gp a).nib (Reg.gp d).nib]
      ∧ ∃ t, exec (.ftoi a d) s = .next t
        ∧ WritesReg s t 2 (.gp d) (FP.f2i (s.gprs.read a)))
    ∧ (encode (.frsqrt b d) = [packInst .xe (Reg.gp b).nib .x0 (Reg.gp d).nib]
      ∧ ∃ t, exec (.frsqrt b d) s = .next t
        ∧ WritesReg s t 2 (.gp d) (FP.rsqrt (s.gprs.read b)))
    ∧ (encode (.frecip a d) = [packInst .xe .x0 (Reg.gp a).nib (Reg.gp d).nib]
      ∧ ∃ t, exec (.frecip a d) s = .next t
        ∧ WritesReg s t 2 (.gp d) (FP.recip (s.gprs.read a)))
    ∧ (encode (.faddi b d imm)
          = [packInst .xc (Reg.gp b).nib .xf (Reg.gp d).nib, imm.extractLsb' 0 16,
              imm.extractLsb' 16 16]
      ∧ ∃ t, exec (.faddi b d imm) s = .next t
        ∧ WritesReg s t 6 (.gp d) (FP.add (s.gprs.read b) imm))
    ∧ (encode (.fsubi b d imm)
          = [packInst .xd (Reg.gp b).nib .xf (Reg.gp d).nib, imm.extractLsb' 0 16,
              imm.extractLsb' 16 16]
      ∧ ∃ t, exec (.fsubi b d imm) s = .next t
        ∧ WritesReg s t 6 (.gp d) (FP.sub (s.gprs.read b) imm))
    ∧ (encode (.fmuli b d imm)
          = [packInst .xe (Reg.gp b).nib .xf (Reg.gp d).nib, imm.extractLsb' 0 16,
              imm.extractLsb' 16 16]
      ∧ ∃ t, exec (.fmuli b d imm) s = .next t
        ∧ WritesReg s t 6 (.gp d) (FP.mul (s.gprs.read b) imm))
    ∧ (encode (.ifsub a d imm)
          = [packInst .xd .xf (Reg.gp a).nib (Reg.gp d).nib, imm.extractLsb' 0 16,
              imm.extractLsb' 16 16]
      ∧ ∃ t, exec (.ifsub a d imm) s = .next t
        ∧ WritesReg s t 6 (.gp d) (FP.sub imm (s.gprs.read a)))

/-! ## Branches -/

/-- The target of a branch: OFFSET with bit 0 clear when R = 0, the base plus it when R = 1, modulo
2^32; bit 0 of it is clear (R260, R98; that OFFSET counts bytes is the spec's decision D28). The
base is what a read of index 0 returns (D4), or, where the parameter says so, the branch's own
address whatever the bias is (V-PA3): the model's choice to have both, notes/assumptions/7.md. With
PC_READ_BIAS 0 (D3) both are the branch's own address. -/
def Obligations.BranchTarget : Prop :=
  ∀ (s : State) (off : PcBits),
    (s.branchTarget off false).toNat = 2 * off.toNat
      ∧ (s.cfg.branchBase = .asRead →
          (s.branchTarget off true).toNat = ((s.readX .pc).toNat + 2 * off.toNat) % 2 ^ 32)
      ∧ (s.cfg.branchBase = .ownAddress ∨ s.cfg.pcReadBias = 0 →
          (s.branchTarget off true).toNat = (s.curPc.toNat + 2 * off.toNat) % 2 ^ 32)
      ∧ (∀ rel, (s.branchTarget off rel).getLsbD 0 = false)

/-- BEQZ, BNEZ, BLTZ, BGEZ, BGTZ and BLEZ: to the target if the condition on `x[B]` holds, else to
the next instruction, changing nothing but the current program counter (R260 to R266; the target:
D4, D28, log 7; the advance: D11). -/
def Obligations.BranchOnZero : Prop :=
  ∀ (b : Reg) (off : PcBits) (rel : Bool) (s : State),
    (encode (.beqz b off rel)
          = [packInst .x0 b.nib .x0 .xf, (branchField off rel).extractLsb' 0 16,
              (branchField off rel).extractLsb' 16 16]
      ∧ ∃ t, exec (.beqz b off rel) s = .next t
        ∧ OnlyJumps s t
            (if s.readX b = 0 then s.branchTarget off rel else s.curPc + 6))
    ∧ (encode (.bnez b off rel)
          = [packInst .x0 b.nib .x1 .xf, (branchField off rel).extractLsb' 0 16,
              (branchField off rel).extractLsb' 16 16]
      ∧ ∃ t, exec (.bnez b off rel) s = .next t
        ∧ OnlyJumps s t
            (if s.readX b ≠ 0 then s.branchTarget off rel else s.curPc + 6))
    ∧ (encode (.bltz b off rel)
          = [packInst .x0 b.nib .x2 .xf, (branchField off rel).extractLsb' 0 16,
              (branchField off rel).extractLsb' 16 16]
      ∧ ∃ t, exec (.bltz b off rel) s = .next t
        ∧ OnlyJumps s t
            (if (s.readX b).toInt < 0 then s.branchTarget off rel else s.curPc + 6))
    ∧ (encode (.bgez b off rel)
          = [packInst .x0 b.nib .x3 .xf, (branchField off rel).extractLsb' 0 16,
              (branchField off rel).extractLsb' 16 16]
      ∧ ∃ t, exec (.bgez b off rel) s = .next t
        ∧ OnlyJumps s t
            (if (s.readX b).toInt ≥ 0 then s.branchTarget off rel else s.curPc + 6))
    ∧ (encode (.bgtz b off rel)
          = [packInst .x0 b.nib .x4 .xf, (branchField off rel).extractLsb' 0 16,
              (branchField off rel).extractLsb' 16 16]
      ∧ ∃ t, exec (.bgtz b off rel) s = .next t
        ∧ OnlyJumps s t
            (if (s.readX b).toInt > 0 then s.branchTarget off rel else s.curPc + 6))
    ∧ (encode (.blez b off rel)
          = [packInst .x0 b.nib .x5 .xf, (branchField off rel).extractLsb' 0 16,
              (branchField off rel).extractLsb' 16 16]
      ∧ ∃ t, exec (.blez b off rel) s = .next t
        ∧ OnlyJumps s t
            (if (s.readX b).toInt ≤ 0 then s.branchTarget off rel else s.curPc + 6))

/-- BEQ, BNE, BLTS, BGES, BLTU and BGEU: the comparison of the two values themselves, signed or
unsigned (R267 to R272; the target: D4, D28, log 7; the advance: D11). -/
def Obligations.BranchOnCompare : Prop :=
  ∀ (b a : Reg) (off : PcBits) (rel : Bool) (s : State),
    (encode (.beq b a off rel)
          = [packInst .x1 b.nib a.nib .xf, (branchField off rel).extractLsb' 0 16,
              (branchField off rel).extractLsb' 16 16]
      ∧ ∃ t, exec (.beq b a off rel) s = .next t
        ∧ OnlyJumps s t
            (if s.readX b = s.readX a then s.branchTarget off rel else s.curPc + 6))
    ∧ (encode (.bne b a off rel)
          = [packInst .x2 b.nib a.nib .xf, (branchField off rel).extractLsb' 0 16,
              (branchField off rel).extractLsb' 16 16]
      ∧ ∃ t, exec (.bne b a off rel) s = .next t
        ∧ OnlyJumps s t
            (if s.readX b ≠ s.readX a then s.branchTarget off rel else s.curPc + 6))
    ∧ (encode (.blts b a off rel)
          = [packInst .x3 b.nib a.nib .xf, (branchField off rel).extractLsb' 0 16,
              (branchField off rel).extractLsb' 16 16]
      ∧ ∃ t, exec (.blts b a off rel) s = .next t
        ∧ OnlyJumps s t
            (if (s.readX b).toInt <
                (s.readX a).toInt then s.branchTarget off rel else s.curPc + 6))
    ∧ (encode (.bges b a off rel)
          = [packInst .x4 b.nib a.nib .xf, (branchField off rel).extractLsb' 0 16,
              (branchField off rel).extractLsb' 16 16]
      ∧ ∃ t, exec (.bges b a off rel) s = .next t
        ∧ OnlyJumps s t
            (if (s.readX b).toInt ≥
                (s.readX a).toInt then s.branchTarget off rel else s.curPc + 6))
    ∧ (encode (.bltu b a off rel)
          = [packInst .x5 b.nib a.nib .xf, (branchField off rel).extractLsb' 0 16,
              (branchField off rel).extractLsb' 16 16]
      ∧ ∃ t, exec (.bltu b a off rel) s = .next t
        ∧ OnlyJumps s t
            (if (s.readX b).toNat <
                (s.readX a).toNat then s.branchTarget off rel else s.curPc + 6))
    ∧ (encode (.bgeu b a off rel)
          = [packInst .x6 b.nib a.nib .xf, (branchField off rel).extractLsb' 0 16,
              (branchField off rel).extractLsb' 16 16]
      ∧ ∃ t, exec (.bgeu b a off rel) s = .next t
        ∧ OnlyJumps s t
            (if (s.readX b).toNat ≥
                (s.readX a).toNat then s.branchTarget off rel else s.curPc + 6))

/-- BFLT and BFGE branch as FP.lt and FP.ge decide; neither is assumed to be the negation of the
other (R273, R274, R247). That the second operand is R_A is C4 of spec/90_conflicts.md, FP as
uninterpreted functions D9, the target D4, D28 and log 7, the advance D11. -/
def Obligations.BranchOnFloat : Prop :=
  ∀ (b a : Reg) (off : PcBits) (rel : Bool) (s : State),
    (encode (.bflt b a off rel)
          = [packInst .xd b.nib a.nib .xf, (branchField off rel).extractLsb' 0 16,
              (branchField off rel).extractLsb' 16 16]
      ∧ ∃ t, exec (.bflt b a off rel) s = .next t
        ∧ OnlyJumps s t
            (if FP.lt (s.readX b)
                (s.readX a) = true then s.branchTarget off rel else s.curPc + 6))
    ∧ (encode (.bfge b a off rel)
          = [packInst .xe b.nib a.nib .xf, (branchField off rel).extractLsb' 0 16,
              (branchField off rel).extractLsb' 16 16]
      ∧ ∃ t, exec (.bfge b a off rel) s = .next t
        ∧ OnlyJumps s t
            (if FP.ge (s.readX b)
                (s.readX a) = true then s.branchTarget off rel else s.curPc + 6))

/-- BBS and BBC: bit number n of the register in FIELD_A, or in FIELD_B by spec/90_conflicts.md C3
(R275, R276; the target: D4, D28, log 7; the advance: D11). -/
def Obligations.BranchOnBit : Prop :=
  ∀ (n : Nib) (r : Reg) (off : PcBits) (rel : Bool) (s : State),
    (encode (.bbs n r off rel)
          = [packInst n .xf r.nib .xf, (branchField off rel).extractLsb' 0 16,
              (branchField off rel).extractLsb' 16 16]
      ∧ ∃ t, exec (.bbs n r off rel) s = .next t
        ∧ OnlyJumps s t
            (if (s.readX r).toNat / 2 ^ n.val % 2 = 1 then s.branchTarget off rel else s.curPc + 6))
    ∧ (encode (.bbc n r off rel)
          = [packInst n r.nib .xf .xf, (branchField off rel).extractLsb' 0 16,
              (branchField off rel).extractLsb' 16 16]
      ∧ ∃ t, exec (.bbc n r off rel) s = .next t
        ∧ OnlyJumps s t
            (if (s.readX r).toNat / 2 ^ n.val % 2 = 0 then s.branchTarget off rel else s.curPc + 6))

/-! ## System instructions -/

/-- FILL, BREAK and SYSCALL. In TASK mode TPC is left at the next instruction, the mode becomes
SCHEDULER, and SPC, R1 .. Re and memory keep their values. In SCHEDULER mode they only advance SPC
(R170 to R172, R375; the SCHEDULER side is the spec's decision D12, that the advance wraps D11).
-/
def Obligations.EnterScheduler : Prop :=
  encode .fill = [0x0000] ∧ encode .brk = [0x0110] ∧ encode .syscall = [0x0220]
    ∧ ∀ (i : Instr) (s : State), i = .fill ∨ i = .brk ∨ i = .syscall →
    ∃ t, exec i s = .next t ∧ t.mode = .scheduler
      ∧ (s.mode = .task → pcAddr t.tpc = pcAddr s.tpc + 2 ∧ t.spc = s.spc)
      ∧ (s.mode = .scheduler → pcAddr t.spc = pcAddr s.spc + 2 ∧ t.tpc = s.tpc)
      ∧ t.gprs = s.gprs ∧ KeepsMemory s t ∧ KeepsEnvironment s t

/-- STU. In SCHEDULER mode SPC is left at the next instruction and the mode becomes TASK; TPC, R1
.. Re and memory keep their values, so execution goes on at TPC. In TASK mode it only advances TPC
(R173, R383; the TASK side is the spec's decision D14, that the advance wraps D11). -/
def Obligations.StuReturns : Prop :=
  encode .stu = [0x0330]
    ∧ ∀ s : State,
    ∃ t, exec .stu s = .next t ∧ t.mode = .task
      ∧ (s.mode = .scheduler → pcAddr t.spc = pcAddr s.spc + 2 ∧ t.tpc = s.tpc
          ∧ t.curPc = pcAddr s.tpc)
      ∧ (s.mode = .task → pcAddr t.tpc = pcAddr s.tpc + 2 ∧ t.spc = s.spc)
      ∧ t.gprs = s.gprs ∧ KeepsMemory s t ∧ KeepsEnvironment s t

/-- FENCE and WFENCE: afterwards the write queue is empty and every observer sees every byte as
the core saw it; the core itself sees no byte change. FENCE alone makes stored bytes fit to fetch
(R175, R176, R76, R77, R79; the ordering model is the spec's decision D19, that WFENCE leaves
bytes stale notes/assumptions/14.md, that the advance wraps D11). -/
def Obligations.FencesDrainQueue : Prop :=
  encode .fence = [0x0dd0] ∧ encode .wfence = [0x0ee0]
    ∧ ∀ (i : Instr) (s : State), i = .fence ∨ i = .wfence →
    ∃ t, exec i s = .next t ∧ t.writeQueue = []
      ∧ (∀ a, Memory.read t.mem a = s.readByte a) ∧ (∀ a, t.readByte a = s.readByte a)
      ∧ t.stale = (if i = .fence then [] else s.stale)
      ∧ t.gprs = s.gprs ∧ t.curPc = s.curPc + 2 ∧ t.mode = s.mode ∧ KeepsOtherPc s t
      ∧ KeepsEnvironment s t

/-- WOI is the OR it overlays, a jump to what index 0 reads as: with the default PC_READ_BIAS of 0
it changes no state at all, in either mode (R177; D3, D33). -/
def Obligations.WoiSpins : Prop :=
  encode .woi = [0x1000]
    ∧ ∀ s : State,
    (∃ t, exec .woi s = .next t ∧ OnlyJumps s t (s.readX .pc))
      ∧ (s.cfg.pcReadBias = 0 → exec .woi s = .next s)

/-! ## Loads and stores -/

/-- The five loads of form A: the words, and `x[D]` takes the value at `x[A]`, extended (R302,
R305 to R309; the register of the address is C1 of spec/90_conflicts.md, the default byte order
D1, the advance D11). `p` is the physical address that `Translate` gives; a refused or misaligned
access is the subject of RefusedDataAccess and MisalignedAccess. -/
def Obligations.LoadFormA : Prop :=
  ∀ (a d : Reg) (p : Word) (s : State),
    (encode (.ldsbA a d) = [packInst .xf .x0 a.nib d.nib]
      ∧ (Accessible s (s.readX a) .byte .read p →
        ∃ t, exec (.ldsbA a d) s = .next t
          ∧ WritesReg s t 2 d ((s.byteAt p 0).signExtend 32)))
    ∧ (encode (.ldubA a d) = [packInst .xf .x1 a.nib d.nib]
      ∧ (Accessible s (s.readX a) .byte .read p →
        ∃ t, exec (.ldubA a d) s = .next t
          ∧ WritesReg s t 2 d ((s.byteAt p 0).setWidth 32)))
    ∧ (encode (.ldshA a d) = [packInst .xf .x2 a.nib d.nib]
      ∧ (Accessible s (s.readX a) .half .read p →
        ∃ t, exec (.ldshA a d) s = .next t
          ∧ WritesReg s t 2 d ((s.halfAt p).signExtend 32)))
    ∧ (encode (.lduhA a d) = [packInst .xf .x3 a.nib d.nib]
      ∧ (Accessible s (s.readX a) .half .read p →
        ∃ t, exec (.lduhA a d) s = .next t
          ∧ WritesReg s t 2 d ((s.halfAt p).setWidth 32)))
    ∧ (encode (.ldwA a d) = [packInst .xf .x4 a.nib d.nib]
      ∧ (Accessible s (s.readX a) .word .read p →
        ∃ t, exec (.ldwA a d) s = .next t
          ∧ WritesReg s t 2 d (s.wordAt p)))

/-- The five loads of form C: the words, and `x[D]` takes the value at VALUE, extended (R303, R313
to R317; the default byte order: D1; the advance: D11). -/
def Obligations.LoadFormC : Prop :=
  ∀ (d : Reg) (imm p : Word) (s : State),
    (encode (.ldsbC d imm)
          = [packInst .xf .x8 .xf d.nib, imm.extractLsb' 0 16, imm.extractLsb' 16 16]
      ∧ (Accessible s imm .byte .read p →
        ∃ t, exec (.ldsbC d imm) s = .next t
          ∧ WritesReg s t 6 d ((s.byteAt p 0).signExtend 32)))
    ∧ (encode (.ldubC d imm)
          = [packInst .xf .x9 .xf d.nib, imm.extractLsb' 0 16, imm.extractLsb' 16 16]
      ∧ (Accessible s imm .byte .read p →
        ∃ t, exec (.ldubC d imm) s = .next t
          ∧ WritesReg s t 6 d ((s.byteAt p 0).setWidth 32)))
    ∧ (encode (.ldshC d imm)
          = [packInst .xf .xa .xf d.nib, imm.extractLsb' 0 16, imm.extractLsb' 16 16]
      ∧ (Accessible s imm .half .read p →
        ∃ t, exec (.ldshC d imm) s = .next t
          ∧ WritesReg s t 6 d ((s.halfAt p).signExtend 32)))
    ∧ (encode (.lduhC d imm)
          = [packInst .xf .xb .xf d.nib, imm.extractLsb' 0 16, imm.extractLsb' 16 16]
      ∧ (Accessible s imm .half .read p →
        ∃ t, exec (.lduhC d imm) s = .next t
          ∧ WritesReg s t 6 d ((s.halfAt p).setWidth 32)))
    ∧ (encode (.ldwC d imm)
          = [packInst .xf .xc .xf d.nib, imm.extractLsb' 0 16, imm.extractLsb' 16 16]
      ∧ (Accessible s imm .word .read p →
        ∃ t, exec (.ldwC d imm) s = .next t
          ∧ WritesReg s t 6 d (s.wordAt p)))

/-- The five loads of form D: the words, and `x[D]` takes the value at `(x[A] + VALUE) mod 2^32`,
extended (R304, R321 to R325; the register of the address is C2 of spec/90_conflicts.md, the
default byte order D1, both wraps D11). -/
def Obligations.LoadFormD : Prop :=
  ∀ (a d : Reg) (imm p : Word) (s : State),
    (encode (.ldsbD a d imm)
          = [packInst .xf .x8 a.nib d.nib, imm.extractLsb' 0 16, imm.extractLsb' 16 16]
      ∧ (Accessible s (s.readX a + imm) .byte .read p →
        ∃ t, exec (.ldsbD a d imm) s = .next t
          ∧ WritesReg s t 6 d ((s.byteAt p 0).signExtend 32)))
    ∧ (encode (.ldubD a d imm)
          = [packInst .xf .x9 a.nib d.nib, imm.extractLsb' 0 16, imm.extractLsb' 16 16]
      ∧ (Accessible s (s.readX a + imm) .byte .read p →
        ∃ t, exec (.ldubD a d imm) s = .next t
          ∧ WritesReg s t 6 d ((s.byteAt p 0).setWidth 32)))
    ∧ (encode (.ldshD a d imm)
          = [packInst .xf .xa a.nib d.nib, imm.extractLsb' 0 16, imm.extractLsb' 16 16]
      ∧ (Accessible s (s.readX a + imm) .half .read p →
        ∃ t, exec (.ldshD a d imm) s = .next t
          ∧ WritesReg s t 6 d ((s.halfAt p).signExtend 32)))
    ∧ (encode (.lduhD a d imm)
          = [packInst .xf .xb a.nib d.nib, imm.extractLsb' 0 16, imm.extractLsb' 16 16]
      ∧ (Accessible s (s.readX a + imm) .half .read p →
        ∃ t, exec (.lduhD a d imm) s = .next t
          ∧ WritesReg s t 6 d ((s.halfAt p).setWidth 32)))
    ∧ (encode (.ldwD a d imm)
          = [packInst .xf .xc a.nib d.nib, imm.extractLsb' 0 16, imm.extractLsb' 16 16]
      ∧ (Accessible s (s.readX a + imm) .word .read p →
        ∃ t, exec (.ldwD a d imm) s = .next t
          ∧ WritesReg s t 6 d (s.wordAt p)))

/-- The ten loads of forms C and D with FIELD_D = 0xf: the words, and TPC takes the extended value
with bit 0 dropped, in either mode; in SCHEDULER mode SPC advances (R301, R313 to R317, R321 to
R325; that index 0xf names TPC here is C22 of spec/90_conflicts.md, the register of the address
C2, the wraps D11). -/
def Obligations.LoadIntoTpc : Prop :=
  ∀ (a : Reg) (imm p : Word) (s : State),
    (encode (.ldsbCTpc imm)
          = [packInst .xf .x8 .xf .xf, imm.extractLsb' 0 16, imm.extractLsb' 16 16]
      ∧ (Accessible s imm .byte .read p →
        ∃ t, exec (.ldsbCTpc imm) s = .next t
          ∧ WritesTpc s t 6 ((s.byteAt p 0).signExtend 32)))
    ∧ (encode (.ldubCTpc imm)
          = [packInst .xf .x9 .xf .xf, imm.extractLsb' 0 16, imm.extractLsb' 16 16]
      ∧ (Accessible s imm .byte .read p →
        ∃ t, exec (.ldubCTpc imm) s = .next t
          ∧ WritesTpc s t 6 ((s.byteAt p 0).setWidth 32)))
    ∧ (encode (.ldshCTpc imm)
          = [packInst .xf .xa .xf .xf, imm.extractLsb' 0 16, imm.extractLsb' 16 16]
      ∧ (Accessible s imm .half .read p →
        ∃ t, exec (.ldshCTpc imm) s = .next t
          ∧ WritesTpc s t 6 ((s.halfAt p).signExtend 32)))
    ∧ (encode (.lduhCTpc imm)
          = [packInst .xf .xb .xf .xf, imm.extractLsb' 0 16, imm.extractLsb' 16 16]
      ∧ (Accessible s imm .half .read p →
        ∃ t, exec (.lduhCTpc imm) s = .next t
          ∧ WritesTpc s t 6 ((s.halfAt p).setWidth 32)))
    ∧ (encode (.ldwCTpc imm)
          = [packInst .xf .xc .xf .xf, imm.extractLsb' 0 16, imm.extractLsb' 16 16]
      ∧ (Accessible s imm .word .read p →
        ∃ t, exec (.ldwCTpc imm) s = .next t
          ∧ WritesTpc s t 6 (s.wordAt p)))
    ∧ (encode (.ldsbDTpc a imm)
          = [packInst .xf .x8 a.nib .xf, imm.extractLsb' 0 16, imm.extractLsb' 16 16]
      ∧ (Accessible s (s.readX a + imm) .byte .read p →
        ∃ t, exec (.ldsbDTpc a imm) s = .next t
          ∧ WritesTpc s t 6 ((s.byteAt p 0).signExtend 32)))
    ∧ (encode (.ldubDTpc a imm)
          = [packInst .xf .x9 a.nib .xf, imm.extractLsb' 0 16, imm.extractLsb' 16 16]
      ∧ (Accessible s (s.readX a + imm) .byte .read p →
        ∃ t, exec (.ldubDTpc a imm) s = .next t
          ∧ WritesTpc s t 6 ((s.byteAt p 0).setWidth 32)))
    ∧ (encode (.ldshDTpc a imm)
          = [packInst .xf .xa a.nib .xf, imm.extractLsb' 0 16, imm.extractLsb' 16 16]
      ∧ (Accessible s (s.readX a + imm) .half .read p →
        ∃ t, exec (.ldshDTpc a imm) s = .next t
          ∧ WritesTpc s t 6 ((s.halfAt p).signExtend 32)))
    ∧ (encode (.lduhDTpc a imm)
          = [packInst .xf .xb a.nib .xf, imm.extractLsb' 0 16, imm.extractLsb' 16 16]
      ∧ (Accessible s (s.readX a + imm) .half .read p →
        ∃ t, exec (.lduhDTpc a imm) s = .next t
          ∧ WritesTpc s t 6 ((s.halfAt p).setWidth 32)))
    ∧ (encode (.ldwDTpc a imm)
          = [packInst .xf .xc a.nib .xf, imm.extractLsb' 0 16, imm.extractLsb' 16 16]
      ∧ (Accessible s (s.readX a + imm) .word .read p →
        ∃ t, exec (.ldwDTpc a imm) s = .next t
          ∧ WritesTpc s t 6 (s.wordAt p)))

/-- The three stores of form A: the words, and the low bits of `x[D]` go to `x[A]`: they join the
write queue behind the earlier stores and become stale for fetch, every other byte reads as
before, and no register changes but the program counter (R302, R310 to R312, R64, R45, R74, R79;
decisions D1, D11, D19, D20, D35, conflict C1). `p` is the physical address that `Translate`
gives; a refused or misaligned access is the subject of RefusedDataAccess and MisalignedAccess. -/
def Obligations.StoreFormA : Prop :=
  ∀ (a d : Reg) (p : Word) (s : State),
    (encode (.stbA a d) = [packInst .xf .x5 a.nib d.nib]
      ∧ (Accessible s (s.readX a) .byte .write p →
        ∃ t, exec (.stbA a d) s = .next t
          ∧ Stores s t 2 .byte p (s.readX d)))
    ∧ (encode (.sthA a d) = [packInst .xf .x6 a.nib d.nib]
      ∧ (Accessible s (s.readX a) .half .write p →
        ∃ t, exec (.sthA a d) s = .next t
          ∧ Stores s t 2 .half p (s.readX d)))
    ∧ (encode (.stwA a d) = [packInst .xf .x7 a.nib d.nib]
      ∧ (Accessible s (s.readX a) .word .write p →
        ∃ t, exec (.stwA a d) s = .next t
          ∧ Stores s t 2 .word p (s.readX d)))

/-- The three stores of form C: the words, and the low bits of `x[D]` go to VALUE as in StoreFormA
(R303, R318 to R320; decisions D1, D11, D19, D20, D35). -/
def Obligations.StoreFormC : Prop :=
  ∀ (d : Reg) (imm p : Word) (s : State),
    (encode (.stbC d imm)
          = [packInst .xf .xd .xf d.nib, imm.extractLsb' 0 16, imm.extractLsb' 16 16]
      ∧ (Accessible s imm .byte .write p →
        ∃ t, exec (.stbC d imm) s = .next t
          ∧ Stores s t 6 .byte p (s.readX d)))
    ∧ (encode (.sthC d imm)
          = [packInst .xf .xe .xf d.nib, imm.extractLsb' 0 16, imm.extractLsb' 16 16]
      ∧ (Accessible s imm .half .write p →
        ∃ t, exec (.sthC d imm) s = .next t
          ∧ Stores s t 6 .half p (s.readX d)))
    ∧ (encode (.stwC d imm)
          = [packInst .xf .xf .xf d.nib, imm.extractLsb' 0 16, imm.extractLsb' 16 16]
      ∧ (Accessible s imm .word .write p →
        ∃ t, exec (.stwC d imm) s = .next t
          ∧ Stores s t 6 .word p (s.readX d)))

/-- The three stores of form D: the words, and the low bits of `x[D]` go to `(x[A] + VALUE) mod
2^32` as in StoreFormA (R304, R326 to R328; decisions D1, D11, D19, D20, D35, conflict C2). -/
def Obligations.StoreFormD : Prop :=
  ∀ (a d : Reg) (imm p : Word) (s : State),
    (encode (.stbD a d imm)
          = [packInst .xf .xd a.nib d.nib, imm.extractLsb' 0 16, imm.extractLsb' 16 16]
      ∧ (Accessible s (s.readX a + imm) .byte .write p →
        ∃ t, exec (.stbD a d imm) s = .next t
          ∧ Stores s t 6 .byte p (s.readX d)))
    ∧ (encode (.sthD a d imm)
          = [packInst .xf .xe a.nib d.nib, imm.extractLsb' 0 16, imm.extractLsb' 16 16]
      ∧ (Accessible s (s.readX a + imm) .half .write p →
        ∃ t, exec (.sthD a d imm) s = .next t
          ∧ Stores s t 6 .half p (s.readX d)))
    ∧ (encode (.stwD a d imm)
          = [packInst .xf .xf a.nib d.nib, imm.extractLsb' 0 16, imm.extractLsb' 16 16]
      ∧ (Accessible s (s.readX a + imm) .word .write p →
        ∃ t, exec (.stwD a d imm) s = .next t
          ∧ Stores s t 6 .word p (s.readX d)))

/-- The six stores of forms C and D with FIELD_D = 0xf: the words; they store TPC, which in TASK
mode reads as index 0 does, as StoreFormC and StoreFormD store a register (R301, R13, R318 to
R320, R326 to R328; decisions D1, D3, D11, D19, D20, D35, conflicts C2 and C22). -/
def Obligations.StoreOfTpc : Prop :=
  ∀ (a : Reg) (imm p : Word) (s : State),
    (encode (.stbCTpc imm)
          = [packInst .xf .xd .xf .xf, imm.extractLsb' 0 16, imm.extractLsb' 16 16]
      ∧ (Accessible s imm .byte .write p →
        ∃ t, exec (.stbCTpc imm) s = .next t
          ∧ Stores s t 6 .byte p (if s.mode = .task then s.readX .pc else pcAddr s.tpc)))
    ∧ (encode (.sthCTpc imm)
          = [packInst .xf .xe .xf .xf, imm.extractLsb' 0 16, imm.extractLsb' 16 16]
      ∧ (Accessible s imm .half .write p →
        ∃ t, exec (.sthCTpc imm) s = .next t
          ∧ Stores s t 6 .half p (if s.mode = .task then s.readX .pc else pcAddr s.tpc)))
    ∧ (encode (.stwCTpc imm)
          = [packInst .xf .xf .xf .xf, imm.extractLsb' 0 16, imm.extractLsb' 16 16]
      ∧ (Accessible s imm .word .write p →
        ∃ t, exec (.stwCTpc imm) s = .next t
          ∧ Stores s t 6 .word p (if s.mode = .task then s.readX .pc else pcAddr s.tpc)))
    ∧ (encode (.stbDTpc a imm)
          = [packInst .xf .xd a.nib .xf, imm.extractLsb' 0 16, imm.extractLsb' 16 16]
      ∧ (Accessible s (s.readX a + imm) .byte .write p →
        ∃ t, exec (.stbDTpc a imm) s = .next t
          ∧ Stores s t 6 .byte p (if s.mode = .task then s.readX .pc else pcAddr s.tpc)))
    ∧ (encode (.sthDTpc a imm)
          = [packInst .xf .xe a.nib .xf, imm.extractLsb' 0 16, imm.extractLsb' 16 16]
      ∧ (Accessible s (s.readX a + imm) .half .write p →
        ∃ t, exec (.sthDTpc a imm) s = .next t
          ∧ Stores s t 6 .half p (if s.mode = .task then s.readX .pc else pcAddr s.tpc)))
    ∧ (encode (.stwDTpc a imm)
          = [packInst .xf .xf a.nib .xf, imm.extractLsb' 0 16, imm.extractLsb' 16 16]
      ∧ (Accessible s (s.readX a + imm) .word .write p →
        ∃ t, exec (.stwDTpc a imm) s = .next t
          ∧ Stores s t 6 .word p (if s.mode = .task then s.readX .pc else pcAddr s.tpc)))

/-- A load or store whose access `Translate` refuses. In TASK mode it is abandoned: the mode
becomes SCHEDULER and nothing else changes, TPC staying at the instruction. In SCHEDULER mode the
model faults (R67, R300, R376, R384; the spec's decisions D13, D17 and D22). -/
def Obligations.RefusedDataAccess : Prop :=
  ∀ (i : Instr) (s : State) (ea : Word) (n : Size) (k : AccessKind),
    dataAccess i s = some (ea, n, k) → Refused s ea n k →
      (s.mode = .task → ∃ t, exec i s = .next t ∧ OnlyMode s t .scheduler)
        ∧ (s.mode = .scheduler → exec i s = .fault (.exceptionInScheduler (.memFault ea)))

/-- Under the default MISALIGNED_POLICY a load or store at an address that is not a multiple of
its size is the model fault Misaligned, in either mode and whatever `Translate` says; 8-bit
accesses are always aligned (R68; the spec's decision D10). -/
def Obligations.MisalignedAccess : Prop :=
  ∀ (i : Instr) (s : State) (ea : Word) (n : Size) (k : AccessKind),
    dataAccess i s = some (ea, n, k) → s.cfg.misaligned = .modelFault →
      (ea.toNat % sizeBytes n ≠ 0 ↔ exec i s = .fault (.misaligned ea))
        ∧ (n = .byte → exec i s ≠ .fault (.misaligned ea))

/-- A word stored by the core is what its next load returns, whatever part of the write queue has
been performed in between, and narrower loads see its bytes, little-endian (R62, R74, R75; the
byte order and the ordering model are the spec's decisions D1 and D19). -/
def Obligations.OwnStoresAreSeen : Prop :=
  ∀ (s t : State) (d : Reg) (e : Gpr) (addr : Word) (j : Nat),
    s.cfg.byteOrder = .little → s.cfg.mmu = .identity → addr.toNat % 4 = 0 →
    exec (.stwC d addr) s = .next t →
      (∃ u, exec (.ldwC (.gp e) addr) (t.drain j) = .next u ∧ u.gprs.read e = s.readX d)
        ∧ (∃ u, exec (.lduhC (.gp e) (addr + 2)) (t.drain j) = .next u
            ∧ u.gprs.read e = ((s.readX d).extractLsb' 16 16).setWidth 32)
        ∧ (∃ u, exec (.ldubC (.gp e) (addr + 1)) (t.drain j) = .next u
            ∧ u.gprs.read e = ((s.readX d).extractLsb' 8 8).setWidth 32)

/-! ## Exceptions, interrupts and fetch -/

/-- The reserved patterns of the load/store space. With FIELD_C = 0xf and INST[11] = 0, FIELD_A =
0xf or FIELD_D = 0xf raises SII and the encoding is 6 bytes long; any other value with INST[11] =
0 is the 2-byte form A, and with INST[11] = 1 every value of A and D is a defined 6-byte
instruction (R330). What raising SII does, ReservedRaisesSii says. -/
def Obligations.LoadStoreReserved : Prop :=
  ∀ (b a d : Nib) (fieldI : Word) (s : State),
    let i := decodeWord (packInst .xf b a d) fieldI
    (b.val < 8 → (a = .xf ∨ d = .xf) →
        exec i s = s.raise .sii ∧ i.length = 6 ∧ i.isReserved = true)
      ∧ (b.val < 8 → a ≠ .xf → d ≠ .xf → i.isReserved = false ∧ i.length = 2)
      ∧ (8 ≤ b.val → i.isReserved = false ∧ i.length = 6)

/-- Every reserved encoding. In TASK mode it is abandoned: the mode becomes SCHEDULER and nothing
else changes, TPC staying at the instruction. In SCHEDULER mode the model faults (R174, R350,
R376, R384; the SCHEDULER side is the spec's decision D13). -/
def Obligations.ReservedRaisesSii : Prop :=
  ∀ (i : Instr) (s : State), i.isReserved = true →
    (s.mode = .task → ∃ t, exec i s = .next t ∧ OnlyMode s t .scheduler)
      ∧ (s.mode = .scheduler → exec i s = .fault (.exceptionInScheduler .sii))

/-- In TASK mode an interrupt request that is high at the boundary is taken before the instruction
at TPC is fetched: the mode becomes SCHEDULER, and TPC, SPC, R1 .. Re and every byte the core sees
keep their values. In SCHEDULER mode the request changes nothing (R380, R381; decisions D15, D16).
-/
def Obligations.InterruptTaken : Prop :=
  ∀ (s : State) (l : List Bool),
    (s.mode = .task → s.irq = true :: l →
      ∃ t, step s = .next t ∧ t.mode = .scheduler ∧ t.gprs = s.gprs ∧ t.tpc = s.tpc
        ∧ t.spc = s.spc
        ∧ (∀ a, t.readByte a = s.readByte a) ∧ t.irq = l ∧ t.cfg = s.cfg)
      ∧ (s.mode = .scheduler → step { s with irq := true :: l } = step { s with irq :=
          false :: l })

/-- When no interrupt is taken and the halfwords at the program counter are those of the
well-formed instruction `i`, and can be fetched, a step is `exec i` after the environment's part
of the boundary (`State.boundary`: this boundary's interrupt level and drain choice are used up).
Of a reserved instruction only INST need be there (R65, R382, R392). -/
def Obligations.StepRunsInstruction : Prop :=
  ∀ (s : State) (i : Instr), i.wf = true → s.interrupted = false →
    (∀ k h, fetches i k h → Fetchable s.boundary (s.halfAddr k) h) →
      step s = exec i s.boundary

/-- When the halfwords before number `k` of the instruction at the program counter can be fetched
and `Translate` refuses number `k`: in TASK mode the mode becomes SCHEDULER and nothing else
changes for the core, TPC staying at the instruction; in SCHEDULER mode the model faults. When
number `k` is permitted but stale, the model faults (R65, R67, R79, R376, R382; decisions D13,
D17, D20). -/
def Obligations.FetchStops : Prop :=
  ∀ (s : State) (i : Instr) (k : Nat) (h : Half), i.wf = true → s.interrupted = false →
    fetches i k h →
    (∀ j g, j < k → fetches i j g → Fetchable s.boundary (s.halfAddr j) g) →
      (s.boundary.translate (s.halfAddr k) .half .fetch = .refused →
        (s.mode = .task → ∃ t, step s = .next t ∧ t.mode = .scheduler ∧ t.gprs = s.gprs
          ∧ t.tpc = s.tpc ∧ t.spc = s.spc ∧ ∀ a, t.readByte a = s.readByte a)
        ∧ (s.mode = .scheduler →
            step s = .fault (.exceptionInScheduler (.memFault (s.halfAddr k)))))
      ∧ (∀ p, s.boundary.translate (s.halfAddr k) .half .fetch = .permitted p →
          s.cfg.ifetchCoherent = false → p.toNat ∈ s.stale ∨ (p + 1).toNat ∈ s.stale →
          step s = .fault (.staleFetch (s.halfAddr k)))

/-- The MMU rules of the mode that is not executing decide nothing: removing them changes no
answer of `Translate`, and with none of the current mode's every access is permitted at its own
address (R66, R81; the form of the rules is notes/assumptions/11.md, the identity decision D17).
-/
def Obligations.TranslationFollowsMode : Prop :=
  ∀ (s t : State) (l : List MmuRule) (a : Word) (n : Size) (k : AccessKind),
    s.cfg.mmu = .rules l → t.mode = s.mode →
    t.cfg.mmu = .rules (l.filter fun r => r.mode = s.mode) →
      t.translate a n k = s.translate a n k
        ∧ ((∀ r ∈ l, r.mode ≠ s.mode) → s.translate a n k = .permitted a)

/-! ## The whole machine -/

/-- After reset: SCHEDULER mode, no store pending and no byte stale. The values that the spec
leaves open are the model's: SPC 0 (notes/assumptions/3.md), TPC and R1 .. Re 0
(notes/assumptions/1.md, notes/assumptions/2.md), memory reading 0 (notes/assumptions/4.md). -/
def Obligations.ResetState : Prop :=
  State.reset.mode = .scheduler ∧ State.reset.writeQueue = [] ∧ State.reset.stale = []
    ∧ State.reset.curPc = 0 ∧ pcAddr State.reset.tpc = 0
    ∧ (∀ g, State.reset.gprs.read g = 0) ∧ (∀ a, State.reset.readByte a = 0)

/-- The state after reset has the form that every step keeps. -/
def Obligations.ResetIsWellFormed : Prop :=
  State.reset.wf = true

/-- Every step from a state of the form `State.wf` leads to one: memory in canonical form, whole
stores of 1, 2 or 4 bytes in the write queue, the stale addresses rising and holding every waiting
byte. -/
def Obligations.StepKeepsForm : Prop :=
  ∀ s t : State, s.wf = true → step s = .next t → t.wf = true

/-- The two program counters. In TASK mode no step writes SPC, and no step depends on it: changing
SPC changes the outcome in SPC alone. In SCHEDULER mode TPC is written only by XMOV, LIT and the
loads that name it, and read only by XMOV and the stores that name it; SPC changes in no other
mode (R39). -/
def Obligations.TaskCannotTouchSpc : Prop :=
  (∀ s t : State, s.mode = .task → step s = .next t → t.spc = s.spc)
    ∧ (∀ (s : State) (p : PcBits), s.mode = .task →
        step { s with spc := p } = mapNext (fun t => { t with spc := p }) (step s))
    ∧ (∀ (i : Instr) (s t : State), s.mode = .scheduler → exec i s = .next t →
        t.tpc ≠ s.tpc → writesTpcByName i = true)
    ∧ (∀ (i : Instr) (s t : State) (p : PcBits), s.mode = .scheduler →
        readsTpcByName i = false → exec i s = .next t →
        ∃ u, exec i { s with tpc := p } = .next u ∧ u.gprs = t.gprs ∧ u.spc = t.spc
          ∧ u.mode = t.mode ∧ KeepsMemory t u ∧ KeepsEnvironment t u)

/-- The mode changes only so: from TASK by an interrupt, by FILL, BREAK or SYSCALL, by a reserved
encoding or by a refused access; from SCHEDULER by STU (R41, R372). -/
def Obligations.ModeChanges : Prop :=
  (∀ s t : State, s.mode = .task → step s = .next t → t.mode = .scheduler →
      s.interrupted = true ∨ (∃ x, s.boundary.fetchInstr = .error (.raises x))
        ∨ ∃ i, s.boundary.fetchInstr = .ok i
          ∧ (i = .fill ∨ i = .brk ∨ i = .syscall ∨ i.isReserved = true
            ∨ ∃ ea n k, dataAccess i s.boundary = some (ea, n, k) ∧ Refused s.boundary ea n k))
    ∧ (∀ s t : State, s.mode = .scheduler → step s = .next t → t.mode = .task →
        s.boundary.fetchInstr = .ok .stu)

/-- An instruction that is no load, store or fence neither reads nor writes memory: it does the
same whatever memory and the write queue hold, and leaves them as they are. FENCE and WFENCE
change no byte that the core sees (R61; the fences: D19). -/
def Obligations.OnlyLoadsAndStoresReachMemory : Prop :=
  ∀ (i : Instr) (s : State),
    (dataAccess i s = none → i ≠ .fence → i ≠ .wfence → ∀ m q,
      exec i { s with mem := m, writeQueue := q }
        = mapNext (fun t => { t with mem := m, writeQueue := q }) (exec i s))
    ∧ (i = .fence ∨ i = .wfence → ∀ t, exec i s = .next t → ∀ a, t.readByte a = s.readByte a)

/-- An instruction writes at most one register, a program counter counted as one besides its
advance. Either no general register changes, and the program counter of the mode that is not
executing keeps its value unless the other one only advances; or one general register alone may
change, the mode does not, the other program counter keeps its value and the current one only
advances (R34, R14; that the advance wraps is the spec's decision D11). -/
def Obligations.OneRegisterWritten : Prop :=
  ∀ (i : Instr) (s t : State), exec i s = .next t →
    (t.gprs = s.gprs
        ∧ (KeepsOtherPc s t
          ∨ (s.mode = .task → pcAddr t.tpc = s.curPc + BitVec.ofNat 32 i.length)
            ∧ (s.mode = .scheduler → pcAddr t.spc = s.curPc + BitVec.ofNat 32 i.length)))
      ∨ ∃ d, (∀ g, g ≠ d → t.gprs.read g = s.gprs.read g) ∧ t.mode = s.mode ∧ KeepsOtherPc s t
        ∧ t.curPc = s.curPc + BitVec.ofNat 32 i.length

/-- The sequential advance by the instruction's length, modulo 2^32: taken by every instruction
that changes no mode and whose FIELD_D is neither 0 nor 0xf, and in SCHEDULER mode by those that
write TPC by name (R14, R13, R112; that it wraps is the spec's decision D11). -/
def Obligations.SequentialAdvance : Prop :=
  ∀ (i : Instr) (s t : State), exec i s = .next t →
    (i.fields.2.2.2 ≠ .x0 → i.fields.2.2.2 ≠ .xf → t.mode = s.mode →
      t.curPc = s.curPc + BitVec.ofNat 32 i.length)
    ∧ (s.mode = .scheduler → writesTpcByName i = true →
        t.curPc = s.curPc + BitVec.ofNat 32 i.length)

/-- No step changes the parameters, and a step uses up this boundary's interrupt level and drain
choice and no other (R6, R62; the lists are notes/assumptions/12.md and notes/assumptions/13.md).
-/
def Obligations.ParametersAreFixed : Prop :=
  ∀ s t : State, step s = .next t →
    t.cfg = s.cfg ∧ t.irq = s.irq.tail ∧ t.drains = s.drains.tail

/-- When the MMU is given as rules, the core cannot tell which of its stores have been performed:
from two states that differ only in that and in when the rest will be, the steps have the same
outcome for the core, and so for every run (R74, R75; the spec's decision D19). -/
def Obligations.DrainsAreInvisible : Prop :=
  ∀ (s t : State) (l : List MmuRule), s.cfg.mmu = .rules l → SameForCore s t →
    SameOutcome (step s) (step t)

/-- The end of a run as R415 defines it is a fixed point: in SCHEDULER mode at WOI or `BEQ PC, PC`
with FIELD_I = 1, a step changes no register, no mode and no byte the core sees, and is at the end
again (default PC_READ_BIAS; the definition is the spec's decision D38). -/
def Obligations.EndOfRunStays : Prop :=
  ∀ (s : State) (l : List MmuRule), s.cfg.mmu = .rules l → s.cfg.pcReadBias = 0 →
    endOfRun s = true →
      ∃ t, step s = .next t ∧ t.gprs = s.gprs ∧ t.tpc = s.tpc ∧ t.spc = s.spc ∧ t.mode = s.mode
        ∧ (∀ a, t.readByte a = s.readByte a) ∧ endOfRun t = true

end
end

