-- ==== Sys2Proof/Laws/State.lean ====
section
/-!
SUPPORT. What each named update of the state does to each field: one lemma per field per update,
so that no proof unfolds a record update; and the reading of registers and program counters
after a write.
-/

namespace Sys2Proof.Machine

/-! ## Direct updates -/

@[simp] theorem State.setTpc_gprs (v : Word) (s : State) : (s.setTpc v).gprs = s.gprs := rfl
@[simp] theorem State.setTpc_tpc (v : Word) (s : State) : (s.setTpc v).tpc = pcOf v := rfl
@[simp] theorem State.setTpc_spc (v : Word) (s : State) : (s.setTpc v).spc = s.spc := rfl
@[simp] theorem State.setTpc_mode (v : Word) (s : State) : (s.setTpc v).mode = s.mode := rfl
@[simp] theorem State.setTpc_mem (v : Word) (s : State) : (s.setTpc v).mem = s.mem := rfl
@[simp] theorem State.setTpc_writeQueue (v : Word) (s : State) : (s.setTpc v).writeQueue = s.writeQueue := rfl
@[simp] theorem State.setTpc_stale (v : Word) (s : State) : (s.setTpc v).stale = s.stale := rfl
@[simp] theorem State.setTpc_irq (v : Word) (s : State) : (s.setTpc v).irq = s.irq := rfl
@[simp] theorem State.setTpc_drains (v : Word) (s : State) : (s.setTpc v).drains = s.drains := rfl
@[simp] theorem State.setTpc_cfg (v : Word) (s : State) : (s.setTpc v).cfg = s.cfg := rfl

@[simp] theorem State.setSpc_gprs (v : Word) (s : State) : (s.setSpc v).gprs = s.gprs := rfl
@[simp] theorem State.setSpc_tpc (v : Word) (s : State) : (s.setSpc v).tpc = s.tpc := rfl
@[simp] theorem State.setSpc_spc (v : Word) (s : State) : (s.setSpc v).spc = pcOf v := rfl
@[simp] theorem State.setSpc_mode (v : Word) (s : State) : (s.setSpc v).mode = s.mode := rfl
@[simp] theorem State.setSpc_mem (v : Word) (s : State) : (s.setSpc v).mem = s.mem := rfl
@[simp] theorem State.setSpc_writeQueue (v : Word) (s : State) : (s.setSpc v).writeQueue = s.writeQueue := rfl
@[simp] theorem State.setSpc_stale (v : Word) (s : State) : (s.setSpc v).stale = s.stale := rfl
@[simp] theorem State.setSpc_irq (v : Word) (s : State) : (s.setSpc v).irq = s.irq := rfl
@[simp] theorem State.setSpc_drains (v : Word) (s : State) : (s.setSpc v).drains = s.drains := rfl
@[simp] theorem State.setSpc_cfg (v : Word) (s : State) : (s.setSpc v).cfg = s.cfg := rfl

@[simp] theorem State.setMode_gprs (m : Mode) (s : State) : (s.setMode m).gprs = s.gprs := rfl
@[simp] theorem State.setMode_tpc (m : Mode) (s : State) : (s.setMode m).tpc = s.tpc := rfl
@[simp] theorem State.setMode_spc (m : Mode) (s : State) : (s.setMode m).spc = s.spc := rfl
@[simp] theorem State.setMode_mode (m : Mode) (s : State) : (s.setMode m).mode = m := rfl
@[simp] theorem State.setMode_mem (m : Mode) (s : State) : (s.setMode m).mem = s.mem := rfl
@[simp] theorem State.setMode_writeQueue (m : Mode) (s : State) : (s.setMode m).writeQueue = s.writeQueue := rfl
@[simp] theorem State.setMode_stale (m : Mode) (s : State) : (s.setMode m).stale = s.stale := rfl
@[simp] theorem State.setMode_irq (m : Mode) (s : State) : (s.setMode m).irq = s.irq := rfl
@[simp] theorem State.setMode_drains (m : Mode) (s : State) : (s.setMode m).drains = s.drains := rfl
@[simp] theorem State.setMode_cfg (m : Mode) (s : State) : (s.setMode m).cfg = s.cfg := rfl

@[simp] theorem State.setGpr_gprs (r : Gpr) (v : Word) (s : State) : (s.setGpr r v).gprs = s.gprs.write r v := rfl
@[simp] theorem State.setGpr_tpc (r : Gpr) (v : Word) (s : State) : (s.setGpr r v).tpc = s.tpc := rfl
@[simp] theorem State.setGpr_spc (r : Gpr) (v : Word) (s : State) : (s.setGpr r v).spc = s.spc := rfl
@[simp] theorem State.setGpr_mode (r : Gpr) (v : Word) (s : State) : (s.setGpr r v).mode = s.mode := rfl
@[simp] theorem State.setGpr_mem (r : Gpr) (v : Word) (s : State) : (s.setGpr r v).mem = s.mem := rfl
@[simp] theorem State.setGpr_writeQueue (r : Gpr) (v : Word) (s : State) : (s.setGpr r v).writeQueue = s.writeQueue := rfl
@[simp] theorem State.setGpr_stale (r : Gpr) (v : Word) (s : State) : (s.setGpr r v).stale = s.stale := rfl
@[simp] theorem State.setGpr_irq (r : Gpr) (v : Word) (s : State) : (s.setGpr r v).irq = s.irq := rfl
@[simp] theorem State.setGpr_drains (r : Gpr) (v : Word) (s : State) : (s.setGpr r v).drains = s.drains := rfl
@[simp] theorem State.setGpr_cfg (r : Gpr) (v : Word) (s : State) : (s.setGpr r v).cfg = s.cfg := rfl

@[simp] theorem State.drain_gprs (k : Nat) (s : State) : (s.drain k).gprs = s.gprs := rfl
@[simp] theorem State.drain_tpc (k : Nat) (s : State) : (s.drain k).tpc = s.tpc := rfl
@[simp] theorem State.drain_spc (k : Nat) (s : State) : (s.drain k).spc = s.spc := rfl
@[simp] theorem State.drain_mode (k : Nat) (s : State) : (s.drain k).mode = s.mode := rfl
@[simp] theorem State.drain_mem (k : Nat) (s : State) : (s.drain k).mem = (s.writeQueue.take k).foldl Memory.perform s.mem := rfl
@[simp] theorem State.drain_writeQueue (k : Nat) (s : State) : (s.drain k).writeQueue = s.writeQueue.drop k := rfl
@[simp] theorem State.drain_stale (k : Nat) (s : State) : (s.drain k).stale = s.stale := rfl
@[simp] theorem State.drain_irq (k : Nat) (s : State) : (s.drain k).irq = s.irq := rfl
@[simp] theorem State.drain_drains (k : Nat) (s : State) : (s.drain k).drains = s.drains := rfl
@[simp] theorem State.drain_cfg (k : Nat) (s : State) : (s.drain k).cfg = s.cfg := rfl

@[simp] theorem State.flush_gprs (s : State) : (s.flush).gprs = s.gprs := rfl
@[simp] theorem State.flush_tpc (s : State) : (s.flush).tpc = s.tpc := rfl
@[simp] theorem State.flush_spc (s : State) : (s.flush).spc = s.spc := rfl
@[simp] theorem State.flush_mode (s : State) : (s.flush).mode = s.mode := rfl
@[simp] theorem State.flush_mem (s : State) : (s.flush).mem = s.view := rfl
@[simp] theorem State.flush_writeQueue (s : State) : (s.flush).writeQueue = [] := rfl
@[simp] theorem State.flush_stale (s : State) : (s.flush).stale = s.stale := rfl
@[simp] theorem State.flush_irq (s : State) : (s.flush).irq = s.irq := rfl
@[simp] theorem State.flush_drains (s : State) : (s.flush).drains = s.drains := rfl
@[simp] theorem State.flush_cfg (s : State) : (s.flush).cfg = s.cfg := rfl

@[simp] theorem State.fence_gprs (s : State) : (s.fence).gprs = s.gprs := rfl
@[simp] theorem State.fence_tpc (s : State) : (s.fence).tpc = s.tpc := rfl
@[simp] theorem State.fence_spc (s : State) : (s.fence).spc = s.spc := rfl
@[simp] theorem State.fence_mode (s : State) : (s.fence).mode = s.mode := rfl
@[simp] theorem State.fence_mem (s : State) : (s.fence).mem = s.view := rfl
@[simp] theorem State.fence_writeQueue (s : State) : (s.fence).writeQueue = [] := rfl
@[simp] theorem State.fence_stale (s : State) : (s.fence).stale = [] := rfl
@[simp] theorem State.fence_irq (s : State) : (s.fence).irq = s.irq := rfl
@[simp] theorem State.fence_drains (s : State) : (s.fence).drains = s.drains := rfl
@[simp] theorem State.fence_cfg (s : State) : (s.fence).cfg = s.cfg := rfl

@[simp] theorem State.storeBytes_gprs (paddr : Word) (n : Size) (v : Word) (s : State) : (s.storeBytes paddr n v).gprs = s.gprs := rfl
@[simp] theorem State.storeBytes_tpc (paddr : Word) (n : Size) (v : Word) (s : State) : (s.storeBytes paddr n v).tpc = s.tpc := rfl
@[simp] theorem State.storeBytes_spc (paddr : Word) (n : Size) (v : Word) (s : State) : (s.storeBytes paddr n v).spc = s.spc := rfl
@[simp] theorem State.storeBytes_mode (paddr : Word) (n : Size) (v : Word) (s : State) : (s.storeBytes paddr n v).mode = s.mode := rfl
@[simp] theorem State.storeBytes_mem (paddr : Word) (n : Size) (v : Word) (s : State) : (s.storeBytes paddr n v).mem = s.mem := rfl
@[simp] theorem State.storeBytes_writeQueue (paddr : Word) (n : Size) (v : Word) (s : State) : (s.storeBytes paddr n v).writeQueue = s.writeQueue ++ [storeCells s.cfg.byteOrder paddr n v] := rfl
@[simp] theorem State.storeBytes_stale (paddr : Word) (n : Size) (v : Word) (s : State) : (s.storeBytes paddr n v).stale = (accessAddrs paddr n).foldl insertAddr s.stale := rfl
@[simp] theorem State.storeBytes_irq (paddr : Word) (n : Size) (v : Word) (s : State) : (s.storeBytes paddr n v).irq = s.irq := rfl
@[simp] theorem State.storeBytes_drains (paddr : Word) (n : Size) (v : Word) (s : State) : (s.storeBytes paddr n v).drains = s.drains := rfl
@[simp] theorem State.storeBytes_cfg (paddr : Word) (n : Size) (v : Word) (s : State) : (s.storeBytes paddr n v).cfg = s.cfg := rfl

@[simp] theorem State.boundary_gprs (s : State) : (s.boundary).gprs = s.gprs := rfl
@[simp] theorem State.boundary_tpc (s : State) : (s.boundary).tpc = s.tpc := rfl
@[simp] theorem State.boundary_spc (s : State) : (s.boundary).spc = s.spc := rfl
@[simp] theorem State.boundary_mode (s : State) : (s.boundary).mode = s.mode := rfl
@[simp] theorem State.boundary_mem (s : State) : (s.boundary).mem = (s.writeQueue.take s.drainCount).foldl Memory.perform s.mem := rfl
@[simp] theorem State.boundary_writeQueue (s : State) : (s.boundary).writeQueue = s.writeQueue.drop s.drainCount := rfl
@[simp] theorem State.boundary_stale (s : State) : (s.boundary).stale = s.stale := rfl
@[simp] theorem State.boundary_irq (s : State) : (s.boundary).irq = s.irq.tail := rfl
@[simp] theorem State.boundary_drains (s : State) : (s.boundary).drains = s.drains.tail := rfl
@[simp] theorem State.boundary_cfg (s : State) : (s.boundary).cfg = s.cfg := rfl

@[simp] theorem State.takeInterrupt_gprs (s : State) : (s.takeInterrupt).gprs = s.gprs := rfl
@[simp] theorem State.takeInterrupt_tpc (s : State) : (s.takeInterrupt).tpc = s.tpc := rfl
@[simp] theorem State.takeInterrupt_spc (s : State) : (s.takeInterrupt).spc = s.spc := rfl
@[simp] theorem State.takeInterrupt_mode (s : State) : (s.takeInterrupt).mode = .scheduler := rfl
@[simp] theorem State.takeInterrupt_mem (s : State) : (s.takeInterrupt).mem = s.mem := rfl
@[simp] theorem State.takeInterrupt_writeQueue (s : State) : (s.takeInterrupt).writeQueue = s.writeQueue := rfl
@[simp] theorem State.takeInterrupt_stale (s : State) : (s.takeInterrupt).stale = s.stale := rfl
@[simp] theorem State.takeInterrupt_irq (s : State) : (s.takeInterrupt).irq = s.irq := rfl
@[simp] theorem State.takeInterrupt_drains (s : State) : (s.takeInterrupt).drains = s.drains := rfl
@[simp] theorem State.takeInterrupt_cfg (s : State) : (s.takeInterrupt).cfg = s.cfg := rfl

/-! ## Updates through the current mode's program counter -/

@[simp] theorem State.jump_gprs (v : Word) (s : State) :
    (s.jump v).gprs = s.gprs := by
  cases h : s.mode <;> simp [State.jump, h]
@[simp] theorem State.jump_tpc (v : Word) (s : State) :
    (s.jump v).tpc = if s.mode = .task then pcOf v else s.tpc := by
  cases h : s.mode <;> simp [State.jump, h]
@[simp] theorem State.jump_spc (v : Word) (s : State) :
    (s.jump v).spc = if s.mode = .task then s.spc else pcOf v := by
  cases h : s.mode <;> simp [State.jump, h]
@[simp] theorem State.jump_mode (v : Word) (s : State) :
    (s.jump v).mode = s.mode := by
  cases h : s.mode <;> simp [State.jump, h]
@[simp] theorem State.jump_mem (v : Word) (s : State) :
    (s.jump v).mem = s.mem := by
  cases h : s.mode <;> simp [State.jump, h]
@[simp] theorem State.jump_writeQueue (v : Word) (s : State) :
    (s.jump v).writeQueue = s.writeQueue := by
  cases h : s.mode <;> simp [State.jump, h]
@[simp] theorem State.jump_stale (v : Word) (s : State) :
    (s.jump v).stale = s.stale := by
  cases h : s.mode <;> simp [State.jump, h]
@[simp] theorem State.jump_irq (v : Word) (s : State) :
    (s.jump v).irq = s.irq := by
  cases h : s.mode <;> simp [State.jump, h]
@[simp] theorem State.jump_drains (v : Word) (s : State) :
    (s.jump v).drains = s.drains := by
  cases h : s.mode <;> simp [State.jump, h]
@[simp] theorem State.jump_cfg (v : Word) (s : State) :
    (s.jump v).cfg = s.cfg := by
  cases h : s.mode <;> simp [State.jump, h]

@[simp] theorem State.advance_gprs (len : Word) (s : State) :
    (s.advance len).gprs = s.gprs := by
  simp [State.advance]
@[simp] theorem State.advance_tpc (len : Word) (s : State) :
    (s.advance len).tpc = if s.mode = .task then pcOf (s.curPc + len) else s.tpc := by
  simp [State.advance]
@[simp] theorem State.advance_spc (len : Word) (s : State) :
    (s.advance len).spc = if s.mode = .task then s.spc else pcOf (s.curPc + len) := by
  simp [State.advance]
@[simp] theorem State.advance_mode (len : Word) (s : State) :
    (s.advance len).mode = s.mode := by
  simp [State.advance]
@[simp] theorem State.advance_mem (len : Word) (s : State) :
    (s.advance len).mem = s.mem := by
  simp [State.advance]
@[simp] theorem State.advance_writeQueue (len : Word) (s : State) :
    (s.advance len).writeQueue = s.writeQueue := by
  simp [State.advance]
@[simp] theorem State.advance_stale (len : Word) (s : State) :
    (s.advance len).stale = s.stale := by
  simp [State.advance]
@[simp] theorem State.advance_irq (len : Word) (s : State) :
    (s.advance len).irq = s.irq := by
  simp [State.advance]
@[simp] theorem State.advance_drains (len : Word) (s : State) :
    (s.advance len).drains = s.drains := by
  simp [State.advance]
@[simp] theorem State.advance_cfg (len : Word) (s : State) :
    (s.advance len).cfg = s.cfg := by
  simp [State.advance]

@[simp] theorem State.enterScheduler_gprs (len : Word) (s : State) :
    (s.enterScheduler len).gprs = s.gprs := by
  simp [State.enterScheduler]
@[simp] theorem State.enterScheduler_tpc (len : Word) (s : State) :
    (s.enterScheduler len).tpc = if s.mode = .task then pcOf (s.curPc + len) else s.tpc := by
  simp [State.enterScheduler]
@[simp] theorem State.enterScheduler_spc (len : Word) (s : State) :
    (s.enterScheduler len).spc = if s.mode = .task then s.spc else pcOf (s.curPc + len) := by
  simp [State.enterScheduler]
@[simp] theorem State.enterScheduler_mode (len : Word) (s : State) :
    (s.enterScheduler len).mode = .scheduler := rfl
@[simp] theorem State.enterScheduler_mem (len : Word) (s : State) :
    (s.enterScheduler len).mem = s.mem := by
  simp [State.enterScheduler]
@[simp] theorem State.enterScheduler_writeQueue (len : Word) (s : State) :
    (s.enterScheduler len).writeQueue = s.writeQueue := by
  simp [State.enterScheduler]
@[simp] theorem State.enterScheduler_stale (len : Word) (s : State) :
    (s.enterScheduler len).stale = s.stale := by
  simp [State.enterScheduler]
@[simp] theorem State.enterScheduler_irq (len : Word) (s : State) :
    (s.enterScheduler len).irq = s.irq := by
  simp [State.enterScheduler]
@[simp] theorem State.enterScheduler_drains (len : Word) (s : State) :
    (s.enterScheduler len).drains = s.drains := by
  simp [State.enterScheduler]
@[simp] theorem State.enterScheduler_cfg (len : Word) (s : State) :
    (s.enterScheduler len).cfg = s.cfg := by
  simp [State.enterScheduler]

@[simp] theorem State.returnToTask_gprs (len : Word) (s : State) :
    (s.returnToTask len).gprs = s.gprs := by
  simp [State.returnToTask]
@[simp] theorem State.returnToTask_tpc (len : Word) (s : State) :
    (s.returnToTask len).tpc = if s.mode = .task then pcOf (s.curPc + len) else s.tpc := by
  simp [State.returnToTask]
@[simp] theorem State.returnToTask_spc (len : Word) (s : State) :
    (s.returnToTask len).spc = if s.mode = .task then s.spc else pcOf (s.curPc + len) := by
  simp [State.returnToTask]
@[simp] theorem State.returnToTask_mode (len : Word) (s : State) :
    (s.returnToTask len).mode = .task := rfl
@[simp] theorem State.returnToTask_mem (len : Word) (s : State) :
    (s.returnToTask len).mem = s.mem := by
  simp [State.returnToTask]
@[simp] theorem State.returnToTask_writeQueue (len : Word) (s : State) :
    (s.returnToTask len).writeQueue = s.writeQueue := by
  simp [State.returnToTask]
@[simp] theorem State.returnToTask_stale (len : Word) (s : State) :
    (s.returnToTask len).stale = s.stale := by
  simp [State.returnToTask]
@[simp] theorem State.returnToTask_irq (len : Word) (s : State) :
    (s.returnToTask len).irq = s.irq := by
  simp [State.returnToTask]
@[simp] theorem State.returnToTask_drains (len : Word) (s : State) :
    (s.returnToTask len).drains = s.drains := by
  simp [State.returnToTask]
@[simp] theorem State.returnToTask_cfg (len : Word) (s : State) :
    (s.returnToTask len).cfg = s.cfg := by
  simp [State.returnToTask]

/-! ## Registers -/

theorem Gprs.read_write (g : Gprs) (d r : Gpr) (v : Word) :
    (g.write d v).read r = if r = d then v else g.read r := by
  cases d <;> cases r <;> rfl

@[simp] theorem Gprs.read_write_same (g : Gprs) (d : Gpr) (v : Word) :
    (g.write d v).read d = v := by simp [Gprs.read_write]

theorem Gprs.read_write_of_ne (g : Gprs) {d r : Gpr} (v : Word) (h : r ≠ d) :
    (g.write d v).read r = g.read r := by simp [Gprs.read_write, h]

theorem Gprs.ext_read {g h : Gprs} (e : ∀ r, g.read r = h.read r) : g = h := by
  cases g; cases h
  simp only [Gprs.mk.injEq]
  exact ⟨e .r1, e .r2, e .r3, e .r4, e .r5, e .r6, e .r7, e .r8, e .r9, e .ra, e .rb, e .rc,
    e .rd, e .re⟩

/-! ## Program counters -/

theorem pcAddr_toNat (p : PcBits) : (pcAddr p).toNat = 2 * p.toNat := by
  change ((p ++ 0#1 : BitVec (31 + 1))).toNat = _
  rw [BitVec.toNat_append, Nat.shiftLeft_eq]
  simp
  omega

theorem pcOf_toNat (v : Word) : (pcOf v).toNat = v.toNat / 2 := by
  have := v.isLt
  simp only [pcOf, BitVec.extractLsb'_toNat, Nat.shiftRight_eq_div_pow]
  omega

@[simp] theorem pcOf_pcAddr (p : PcBits) : pcOf (pcAddr p) = p := by
  apply BitVec.eq_of_toNat_eq
  rw [pcOf_toNat, pcAddr_toNat]
  omega

theorem pcAddr_getLsbD (p : PcBits) (i : Nat) :
    (pcAddr p).getLsbD i = (decide (0 < i) && p.getLsbD (i - 1)) := by
  change ((p ++ 0#1 : BitVec (31 + 1))).getLsbD i = _
  rw [BitVec.getLsbD_append]
  cases i <;> simp

/-- A program counter reads back what was written to it with bit 0 cleared (R35). -/
theorem pcAddr_pcOf (v : Word) : pcAddr (pcOf v) = v &&& ~~~1#32 := by
  apply BitVec.eq_of_getLsbD_eq
  intro i hi
  rw [pcAddr_getLsbD]
  cases i with
  | zero => simp
  | succ i =>
    have h1 : (1#32).getLsbD (i + 1) = false := by
      rw [BitVec.getLsbD_one]; simp
    simp only [pcOf, BitVec.getLsbD_and, BitVec.getLsbD_not, BitVec.getLsbD_extractLsb', h1]
    simp [hi, show i < 31 by omega, Nat.add_comm]

@[simp] theorem pcAddr_bit0 (p : PcBits) : (pcAddr p).getLsbD 0 = false := by
  rw [pcAddr_getLsbD]
  rfl

theorem pcAddr_injective {p q : PcBits} (h : pcAddr p = pcAddr q) : p = q := by
  rw [← pcOf_pcAddr p, h, pcOf_pcAddr]

/-- Adding an even number to an even address leaves bit 0 clear, so a program counter holds the
sum as it is. -/
theorem pcAddr_pcOf_add (p q : PcBits) : pcAddr (pcOf (pcAddr p + pcAddr q)) = pcAddr p + pcAddr q := by
  apply BitVec.eq_of_toNat_eq
  rw [pcAddr_toNat, pcOf_toNat, BitVec.toNat_add, pcAddr_toNat, pcAddr_toNat]
  omega

theorem pcAddr_one : pcAddr 1 = 2 := by decide
theorem pcAddr_three : pcAddr 3 = 6 := by decide

/-- A program counter holds the address after a 2-byte instruction. -/
@[simp] theorem pcAddr_pcOf_add_two (p : PcBits) : pcAddr (pcOf (pcAddr p + 2#32)) = pcAddr p + 2#32 :=
  pcAddr_pcOf_add p 1

/-- A program counter holds the address after a 6-byte instruction. -/
@[simp] theorem pcAddr_pcOf_add_six (p : PcBits) : pcAddr (pcOf (pcAddr p + 6#32)) = pcAddr p + 6#32 :=
  pcAddr_pcOf_add p 3

@[simp] theorem State.curPc_setGpr (r : Gpr) (v : Word) (s : State) :
    (s.setGpr r v).curPc = s.curPc := rfl
@[simp] theorem State.curPc_storeBytes (paddr : Word) (n : Size) (v : Word) (s : State) :
    (s.storeBytes paddr n v).curPc = s.curPc := rfl
@[simp] theorem State.curPc_flush (s : State) : s.flush.curPc = s.curPc := rfl
@[simp] theorem State.curPc_fence (s : State) : s.fence.curPc = s.curPc := rfl
@[simp] theorem State.curPc_boundary (s : State) : s.boundary.curPc = s.curPc := rfl
@[simp] theorem State.curPc_drain (k : Nat) (s : State) : (s.drain k).curPc = s.curPc := rfl

/-- The current program counter holds an even address. -/
theorem State.curPc_eq_pcAddr (s : State) : ∃ p, s.curPc = pcAddr p := by
  cases h : s.mode
  · exact ⟨s.tpc, by simp [State.curPc, h]⟩
  · exact ⟨s.spc, by simp [State.curPc, h]⟩

/-- A jump leaves the current program counter at the value with bit 0 cleared (R12). -/
@[simp] theorem State.curPc_jump (v : Word) (s : State) :
    (s.jump v).curPc = v &&& ~~~1#32 := by
  cases h : s.mode <;> simp [State.jump, State.curPc, h, pcAddr_pcOf]

/-- The sequential advance of a 2-byte instruction (R14). -/
@[simp] theorem State.curPc_advance_two (s : State) : (s.advance 2#32).curPc = s.curPc + 2#32 := by
  change (s.advance 2).curPc = s.curPc + 2
  obtain ⟨p, hp⟩ := s.curPc_eq_pcAddr
  rw [State.advance, State.curPc_jump, ← pcAddr_pcOf, hp, ← pcAddr_one, pcAddr_pcOf_add]

/-- The sequential advance of a 6-byte instruction (R14). -/
@[simp] theorem State.curPc_advance_six (s : State) : (s.advance 6#32).curPc = s.curPc + 6#32 := by
  change (s.advance 6).curPc = s.curPc + 6
  obtain ⟨p, hp⟩ := s.curPc_eq_pcAddr
  rw [State.advance, State.curPc_jump, ← pcAddr_pcOf, hp, ← pcAddr_three, pcAddr_pcOf_add]

/-! ## Writes that end an instruction -/

/-- Everything a write of `x[d]` leaves alone (R12, R14). -/
theorem State.writeX_keeps (len : Word) (d : Reg) (v : Word) (s : State) :
    let t := s.writeX len d v
    t.mode = s.mode ∧ t.mem = s.mem ∧ t.writeQueue = s.writeQueue ∧ t.stale = s.stale ∧
      t.irq = s.irq ∧ t.drains = s.drains ∧ t.cfg = s.cfg := by
  cases d <;> simp [State.writeX]

/-- Everything a write of TPC by name leaves alone (R13, R14). -/
theorem State.writeTpc_keeps (len v : Word) (s : State) :
    let t := s.writeTpc len v
    t.gprs = s.gprs ∧ t.mode = s.mode ∧ t.mem = s.mem ∧ t.writeQueue = s.writeQueue ∧
      t.stale = s.stale ∧ t.irq = s.irq ∧ t.drains = s.drains ∧ t.cfg = s.cfg := by
  cases h : s.mode <;> simp [State.writeTpc, h]

/-- Everything a write of `xt[d]` leaves alone (R13, R14). -/
theorem State.writeXt_keeps (len : Word) (d : Reg) (v : Word) (s : State) :
    let t := s.writeXt len d v
    t.mode = s.mode ∧ t.mem = s.mem ∧ t.writeQueue = s.writeQueue ∧ t.stale = s.stale ∧
      t.irq = s.irq ∧ t.drains = s.drains ∧ t.cfg = s.cfg := by
  cases d
  · have := s.writeTpc_keeps len v
    simp_all [State.writeXt]
  · simp [State.writeXt]

/-! ## The events -/

/-- Exception entry: a next state in TASK mode only, which differs in the mode alone (R376). -/
theorem State.raise_next {e : Exc} {s t : State} (h : s.raise e = .next t) :
    s.mode = .task ∧ t = s.setMode .scheduler := by
  cases hm : s.mode <;> simp_all [State.raise]

theorem State.raise_task (e : Exc) {s : State} (h : s.mode = .task) :
    s.raise e = .next (s.setMode .scheduler) := by simp [State.raise, h]

theorem State.raise_scheduler (e : Exc) {s : State} (h : s.mode = .scheduler) :
    s.raise e = .fault (.exceptionInScheduler e) := by simp [State.raise, h]

/-- A stopped access: a next state only where it raises an exception in TASK mode (R16, R376). -/
theorem State.stop_next {e : AccessStop} {s t : State} (h : s.stop e = .next t) :
    (∃ x, e = .raises x) ∧ s.mode = .task ∧ t = s.setMode .scheduler := by
  cases e with
  | raises x => exact ⟨⟨x, rfl⟩, State.raise_next h⟩
  | faults f => simp [State.stop] at h

/-! ## The shared shapes of the meanings -/

theorem aluA_next (f : Word → Word → Word) (b a d : Reg) (s : State) :
    aluA f b a d s = .next (s.writeX 2 d (f (s.readX b) (s.readX a))) := rfl
theorem aluA1_next (f : Word → Word) (r d : Reg) (s : State) :
    aluA1 f r d s = .next (s.writeX 2 d (f (s.readX r))) := rfl
theorem aluB_next (f : Word → Word → Word) (b d : Reg) (imm : Word) (s : State) :
    aluB f b d imm s = .next (s.writeX 6 d (f (s.readX b) imm)) := rfl
theorem aluC_next (f : Word → Word → Word) (a d : Reg) (imm : Word) (s : State) :
    aluC f a d imm s = .next (s.writeX 6 d (f imm (s.readX a))) := rfl
theorem branch_next (c : Bool) (off : PcBits) (rel : Bool) (s : State) :
    branch c off rel s
      = .next (if c then s.jump (s.branchTarget off rel) else s.advance 6) := rfl

/-- Everything a load can do when it answers a next state: it writes the value it read, or its
access raised an exception in TASK mode (R300). -/
theorem load_next {len : Word} {n : Size} {ext : Word → Word} {ea : Word} {d : Reg} {s t : State}
    (h : load len n ext ea d s = .next t) :
    (∃ v, s.memRead ea n = .ok v ∧ t = s.writeX len d (ext v)) ∨
      (∃ x, s.memRead ea n = .error (.raises x) ∧ s.mode = .task ∧ t = s.setMode .scheduler) := by
  unfold load at h
  split at h
  · next e he =>
    obtain ⟨⟨x, rfl⟩, hm, ht⟩ := State.stop_next h
    exact .inr ⟨x, he, hm, ht⟩
  · next v hv =>
    cases h
    exact .inl ⟨v, hv, rfl⟩

/-- Everything a load into TPC can do when it answers a next state (R301). -/
theorem loadTpc_next {len : Word} {n : Size} {ext : Word → Word} {ea : Word} {s t : State}
    (h : loadTpc len n ext ea s = .next t) :
    (∃ v, s.memRead ea n = .ok v ∧ t = s.writeTpc len (ext v)) ∨
      (∃ x, s.memRead ea n = .error (.raises x) ∧ s.mode = .task ∧ t = s.setMode .scheduler) := by
  unfold loadTpc at h
  split at h
  · next e he =>
    obtain ⟨⟨x, rfl⟩, hm, ht⟩ := State.stop_next h
    exact .inr ⟨x, he, hm, ht⟩
  · next v hv =>
    cases h
    exact .inl ⟨v, hv, rfl⟩

/-- Everything a store can do when it answers a next state: it issues its bytes and advances, or
its access raised an exception in TASK mode (R300). -/
theorem store_next {len : Word} {n : Size} {ea v : Word} {s t : State}
    (h : store len n ea v s = .next t) :
    (∃ p, s.dataAddr ea n .write = .ok p ∧ t = (s.storeBytes p n v).advance len) ∨
      (∃ x, s.dataAddr ea n .write = .error (.raises x) ∧ s.mode = .task
        ∧ t = s.setMode .scheduler) := by
  unfold store State.memWrite at h
  cases hd : s.dataAddr ea n .write with
  | error e =>
    rw [hd] at h
    obtain ⟨⟨x, rfl⟩, hm, ht⟩ := State.stop_next h
    exact .inr ⟨x, rfl, hm, ht⟩
  | ok p =>
    rw [hd] at h
    cases h
    exact .inl ⟨p, rfl, rfl⟩

/-! ## One step -/

/-- Everything a step can do when it answers a next state: it takes the interrupt, it runs the
fetched instruction, or the fetch raised an exception in TASK mode (R392). -/
theorem step_next {s t : State} (h : step s = .next t) :
    (s.interrupted = true ∧ t = s.boundary.takeInterrupt) ∨
      (s.interrupted = false ∧ ∃ i, s.boundary.fetchInstr = .ok i ∧ exec i s.boundary = .next t) ∨
      (s.interrupted = false ∧ (∃ x, s.boundary.fetchInstr = .error (.raises x))
        ∧ s.mode = .task ∧ t = s.boundary.setMode .scheduler) := by
  unfold step at h
  split at h
  · next hi =>
    cases h
    exact .inl ⟨hi, rfl⟩
  · next hi =>
    have hi : s.interrupted = false := by simpa using hi
    unfold State.runInstr at h
    split at h
    · next e he =>
      obtain ⟨⟨x, rfl⟩, hm, ht⟩ := State.stop_next h
      exact .inr (.inr ⟨hi, ⟨x, he⟩, hm, ht⟩)
    · next i hf => exact .inr (.inl ⟨hi, i, hf, h⟩)

end Sys2Proof.Machine
end

