-- ==== Sys2Proof/Laws/Memory.lean ====
section
/-!
SUPPORT. The laws of memory: what reading gives after a write, that every memory operation keeps
the canonical form, and what the write queue does to the core's own view (R62, R70, R74).
-/

namespace Sys2Proof.Machine

/-! ## Reading after writing -/

@[simp] theorem Memory.read_nil (a : Nat) : Memory.read [] a = unlistedByte := rfl

theorem Memory.read_cons (c : Host.Cell) (m : Memory) (a : Nat) :
    Memory.read (c :: m) a = if c.1 = a then c.2 else Memory.read m a := rfl

theorem Memory.erase_ne (m : Memory) (a : Nat) : ∀ c ∈ Memory.erase m a, c.1 ≠ a := by
  intro c h
  simpa using (List.mem_filter.1 h).2

/-- An address that no entry names reads as an unlisted one. -/
theorem Memory.read_of_absent {m : Memory} {a : Nat} (h : ∀ c ∈ m, c.1 ≠ a) :
    Memory.read m a = unlistedByte := by
  induction m with
  | nil => rfl
  | cons d m ih =>
    rw [Memory.read_cons, if_neg (h d (by simp))]
    exact ih fun c hc => h c (by simp [hc])

theorem Memory.read_erase_of_ne (m : Memory) {a b : Nat} (h : b ≠ a) :
    Memory.read (Memory.erase m a) b = Memory.read m b := by
  induction m with
  | nil => rfl
  | cons d m ih =>
    have e : Memory.erase (d :: m) a
        = if d.1 ≠ a then d :: Memory.erase m a else Memory.erase m a := by
      simp [Memory.erase, List.filter_cons]
    rw [e, Memory.read_cons]
    split
    · rw [Memory.read_cons, ih]
    · next hd =>
      have hd : d.1 = a := not_not.1 hd
      rw [ih, if_neg (fun hb : d.1 = b => h (hb.symm.trans hd))]

theorem Memory.read_insert {m : Memory} {c : Host.Cell} (h : ∀ d ∈ m, d.1 ≠ c.1) (b : Nat) :
    Memory.read (Memory.insert m c) b = if c.1 = b then c.2 else Memory.read m b := by
  induction m with
  | nil => rfl
  | cons d m ih =>
    have hd : d.1 ≠ c.1 := h d (by simp)
    have ih := ih fun e he => h e (by simp [he])
    unfold Memory.insert
    split
    · rfl
    · rw [Memory.read_cons, ih, Memory.read_cons]
      split
      · next hdb => rw [if_neg (fun hc => hd (hdb.trans hc.symm))]
      · rfl

/-- Reading a byte after a write: the value written there, and what was there before anywhere
else. -/
theorem Memory.read_write (m : Memory) (a : Nat) (v : Byte) (b : Nat) :
    Memory.read (Memory.write m a v) b = if a = b then v else Memory.read m b := by
  unfold Memory.write
  split
  · next hv =>
    split
    · next hab =>
      subst hab
      rw [Memory.read_of_absent (Memory.erase_ne m a), hv]
    · next hab => exact Memory.read_erase_of_ne m (Ne.symm hab)
  · rw [Memory.read_insert (Memory.erase_ne m a)]
    split
    · rfl
    · next hab => exact Memory.read_erase_of_ne m (Ne.symm hab)

@[simp] theorem Memory.read_write_same (m : Memory) (a : Nat) (v : Byte) :
    Memory.read (Memory.write m a v) a = v := by simp [Memory.read_write]

theorem Memory.read_write_of_ne (m : Memory) {a b : Nat} (v : Byte) (h : a ≠ b) :
    Memory.read (Memory.write m a v) b = Memory.read m b := by simp [Memory.read_write, h]

@[simp] theorem Memory.perform_nil (m : Memory) : Memory.perform m [] = m := rfl
@[simp] theorem Memory.perform_cons (m : Memory) (c : Host.Cell) (st : PendingStore) :
    Memory.perform m (c :: st) = Memory.perform (Memory.write m c.1 c.2) st := rfl

/-- A store leaves every byte it does not name alone. -/
theorem Memory.read_perform_of_absent (m : Memory) (st : PendingStore) {a : Nat}
    (h : ∀ c ∈ st, c.1 ≠ a) : Memory.read (Memory.perform m st) a = Memory.read m a := by
  induction st generalizing m with
  | nil => rfl
  | cons c st ih =>
    rw [Memory.perform_cons, ih _ fun d hd => h d (by simp [hd]),
      Memory.read_write_of_ne _ _ (h c (by simp))]

/-! ## The canonical form -/

/-- The canonical form, as a property of all entries. -/
theorem Memory.wf_iff (m : Memory) :
    Memory.wf m = true
      ↔ m.Pairwise (fun c d => c.1 < d.1) ∧ ∀ c ∈ m, c.1 < 2 ^ 32 ∧ c.2 ≠ unlistedByte := by
  induction m with
  | nil => simp [Memory.wf]
  | cons c m ih =>
    cases m with
    | nil => simp [Memory.wf]
    | cons d m =>
      rw [Memory.wf, Bool.and_eq_true, ih]
      simp only [Bool.and_eq_true, decide_eq_true_eq, List.pairwise_cons, List.mem_cons]
      constructor
      · rintro ⟨⟨⟨h1, h2⟩, h3⟩, ⟨h4, h5⟩, h6⟩
        refine ⟨⟨?_, h4, h5⟩, ?_⟩
        · rintro e (rfl | he)
          · exact h3
          · exact Nat.lt_trans h3 (h4 e he)
        · rintro e (rfl | he)
          · exact ⟨h1, h2⟩
          · exact h6 e he
      · rintro ⟨⟨h1, h2, h3⟩, h4⟩
        exact ⟨⟨h4 c (.inl rfl), h1 d (.inl rfl)⟩, ⟨h2, h3⟩, fun e he => h4 e (.inr he)⟩

theorem Memory.wf_erase {m : Memory} (h : Memory.wf m = true) (a : Nat) :
    Memory.wf (Memory.erase m a) = true := by
  rw [Memory.wf_iff] at h ⊢
  exact ⟨h.1.sublist List.filter_sublist, fun c hc => h.2 c (List.mem_filter.1 hc).1⟩

theorem Memory.mem_insert {m : Memory} {c e : Host.Cell} (h : e ∈ Memory.insert m c) :
    e = c ∨ e ∈ m := by
  induction m with
  | nil => exact .inl (by simpa [Memory.insert] using h)
  | cons d m ih =>
    unfold Memory.insert at h
    split at h
    · simpa using h
    · rcases List.mem_cons.1 h with rfl | h
      · simp
      · rcases ih h with rfl | h
        · simp
        · simp [h]

theorem Memory.wf_insert {m : Memory} {c : Host.Cell} (h : Memory.wf m = true)
    (ha : c.1 < 2 ^ 32) (hv : c.2 ≠ unlistedByte) (hn : ∀ d ∈ m, d.1 ≠ c.1) :
    Memory.wf (Memory.insert m c) = true := by
  rw [Memory.wf_iff] at h ⊢
  refine ⟨?_, fun e he => (Memory.mem_insert he).elim (fun hc => hc ▸ ⟨ha, hv⟩) (h.2 e)⟩
  have hp := h.1
  clear h
  induction m with
  | nil => simp [Memory.insert]
  | cons d m ih =>
    rw [List.pairwise_cons] at hp
    have hd := hn d (by simp)
    unfold Memory.insert
    split
    · next hlt =>
      refine List.pairwise_cons.2 ⟨?_, List.pairwise_cons.2 hp⟩
      intro e he
      rcases List.mem_cons.1 he with rfl | he
      · exact hlt
      · exact Nat.lt_trans hlt (hp.1 e he)
    · next hge =>
      refine List.pairwise_cons.2 ⟨?_, ih (fun e he => hn e (by simp [he])) hp.2⟩
      intro e he
      rcases Memory.mem_insert he with rfl | he
      · omega
      · exact hp.1 e he

/-- A write keeps the canonical form. -/
theorem Memory.wf_write {m : Memory} (h : Memory.wf m = true) {a : Nat} (ha : a < 2 ^ 32)
    (v : Byte) : Memory.wf (Memory.write m a v) = true := by
  unfold Memory.write
  split
  · exact Memory.wf_erase h a
  · next hv => exact Memory.wf_insert (Memory.wf_erase h a) ha hv (Memory.erase_ne m a)

/-- Performing a store keeps the canonical form. -/
theorem Memory.wf_perform {m : Memory} (h : Memory.wf m = true) {st : PendingStore}
    (ha : ∀ c ∈ st, c.1 < 2 ^ 32) : Memory.wf (Memory.perform m st) = true := by
  induction st generalizing m with
  | nil => exact h
  | cons c st ih =>
    exact ih (Memory.wf_write h (ha c (by simp)) c.2) fun d hd => ha d (by simp [hd])

/-- Performing queued stores keeps the canonical form. -/
theorem Memory.wf_foldl_perform {m : Memory} (h : Memory.wf m = true) {q : List PendingStore}
    (hq : queueWf q = true) : Memory.wf (q.foldl Memory.perform m) = true := by
  induction q generalizing m with
  | nil => exact h
  | cons st q ih =>
    simp only [queueWf, List.all_cons, Bool.and_eq_true, List.all_eq_true, decide_eq_true_eq] at hq
    exact ih (Memory.wf_perform h hq.1.2) (by simpa [queueWf] using hq.2)

/-- Two memories in canonical form that read alike everywhere are equal. -/
theorem Memory.ext_read {m n : Memory} (hm : Memory.wf m = true) (hn : Memory.wf n = true)
    (h : ∀ a, Memory.read m a = Memory.read n a) : m = n := by
  have low : ∀ {c : Host.Cell} {m : Memory}, Memory.wf (c :: m) = true →
      ∀ a, a < c.1 → Memory.read (c :: m) a = unlistedByte := by
    intro c m hw a ha
    rw [Memory.wf_iff, List.pairwise_cons] at hw
    refine Memory.read_of_absent fun d hd => ?_
    rcases List.mem_cons.1 hd with rfl | hd
    · omega
    · have := hw.1.1 d hd
      omega
  have head : ∀ {c : Host.Cell} {m : Memory}, Memory.wf (c :: m) = true →
      Memory.read (c :: m) c.1 = c.2 ∧ c.2 ≠ unlistedByte := by
    intro c m hw
    exact ⟨by simp [Memory.read_cons], ((Memory.wf_iff _).1 hw).2 c (by simp) |>.2⟩
  induction m generalizing n with
  | nil =>
    cases n with
    | nil => rfl
    | cons d n => exact absurd ((head hn).1.symm.trans (h d.1).symm) (head hn).2
  | cons c m ih =>
    cases n with
    | nil => exact absurd ((head hm).1.symm.trans (h c.1)) (head hm).2
    | cons d n =>
      have hcd : c.1 = d.1 := by
        rcases Nat.lt_trichotomy c.1 d.1 with hlt | heq | hgt
        · exact absurd ((head hm).1.symm.trans ((h c.1).trans (low hn _ hlt))) (head hm).2
        · exact heq
        · exact absurd ((head hn).1.symm.trans ((h d.1).symm.trans (low hm _ hgt))) (head hn).2
      have hv : c.2 = d.2 := by
        have := h c.1
        rwa [(head hm).1, hcd, (head hn).1] at this
      have hce : c = d := Prod.ext hcd hv
      subst hce
      have tail : ∀ {c : Host.Cell} {m : Memory}, Memory.wf (c :: m) = true →
          Memory.wf m = true ∧ Memory.read m c.1 = unlistedByte := by
        intro c m hw
        rw [Memory.wf_iff, List.pairwise_cons] at hw
        refine ⟨(Memory.wf_iff m).2 ⟨hw.1.2, fun e he => hw.2 e (by simp [he])⟩,
          Memory.read_of_absent fun e he => ?_⟩
        have := hw.1.1 e he
        omega
      rw [ih (tail hm).1 (tail hn).1 fun a => ?_]
      by_cases ha : c.1 = a
      · rw [← ha, (tail hm).2, (tail hn).2]
      · have := h a
        rwa [Memory.read_cons, Memory.read_cons, if_neg ha, if_neg ha] at this

/-- The memory after reset has the canonical form. -/
theorem Memory.wf_reset : Memory.wf State.reset.mem = true := rfl

/-! ## The core's own view -/

/-- Performing queued stores does not change what the core sees (R74). -/
@[simp] theorem State.view_drain (k : Nat) (s : State) : (s.drain k).view = s.view := by
  simp only [State.view, State.drain]
  rw [← List.foldl_append, List.take_append_drop]

@[simp] theorem State.view_boundary (s : State) : s.boundary.view = s.view :=
  State.view_drain s.drainCount s

@[simp] theorem State.view_flush (s : State) : s.flush.view = s.view := rfl
@[simp] theorem State.view_fence (s : State) : s.fence.view = s.view := rfl

/-- An issued store is visible to the core at once (R74 (a)). -/
@[simp] theorem State.view_storeBytes (paddr : Word) (n : Size) (v : Word) (s : State) :
    (s.storeBytes paddr n v).view
      = Memory.perform s.view (storeCells s.cfg.byteOrder paddr n v) := by
  simp [State.view, State.storeBytes, List.foldl_append]

/-- The view depends on memory and the write queue only. -/
theorem State.view_congr {s t : State} (hm : t.mem = s.mem) (hq : t.writeQueue = s.writeQueue) :
    t.view = s.view := by simp [State.view, hm, hq]

@[simp] theorem State.view_setMode (m : Mode) (s : State) : (s.setMode m).view = s.view := rfl
@[simp] theorem State.view_setGpr (r : Gpr) (v : Word) (s : State) :
    (s.setGpr r v).view = s.view := rfl
@[simp] theorem State.view_jump (v : Word) (s : State) : (s.jump v).view = s.view :=
  State.view_congr (by simp) (by simp)
@[simp] theorem State.view_advance (len : Word) (s : State) : (s.advance len).view = s.view :=
  State.view_congr (by simp) (by simp)
@[simp] theorem State.view_writeX (len : Word) (d : Reg) (v : Word) (s : State) :
    (s.writeX len d v).view = s.view :=
  State.view_congr (s.writeX_keeps len d v).2.1 (s.writeX_keeps len d v).2.2.1
@[simp] theorem State.view_writeTpc (len v : Word) (s : State) :
    (s.writeTpc len v).view = s.view :=
  State.view_congr (s.writeTpc_keeps len v).2.2.1 (s.writeTpc_keeps len v).2.2.2.1
@[simp] theorem State.view_writeXt (len : Word) (d : Reg) (v : Word) (s : State) :
    (s.writeXt len d v).view = s.view :=
  State.view_congr (s.writeXt_keeps len d v).2.1 (s.writeXt_keeps len d v).2.2.1

theorem State.readByte_congr {s t : State} (h : t.view = s.view) (a : Nat) :
    t.readByte a = s.readByte a := by simp [State.readByte, h]

end Sys2Proof.Machine
end

