-- ==== Sys2Proof/Laws/Access.lean ====
section
/-!
SUPPORT. What a memory access can do, said once: the alignment check and `Translate`, the value a
load returns, what a store does to the core's view, and a fetch (R62 to R68, R79).
-/

namespace Sys2Proof.Machine

/-! ## The common steps of a data access -/

theorem isAligned_eq (addr : Word) (n : Size) :
    isAligned addr n = decide (addr.toNat % sizeBytes n = 0) := by
  unfold isAligned
  by_cases h : addr.toNat % sizeBytes n = 0 <;> simp [h]

theorem State.dataAddr_ok {s : State} {ea : Word} {n : Size} {k : AccessKind} {p : Word} :
    s.dataAddr ea n k = .ok p ↔ Accessible s ea n k p := by
  unfold State.dataAddr Accessible
  by_cases ha : ea.toNat % sizeBytes n = 0 <;> cases hm : s.cfg.misaligned <;>
    cases ht : s.translate ea n k <;> simp [isAligned_eq, ha]

theorem State.dataAddr_raises {s : State} {ea : Word} {n : Size} {k : AccessKind} {x : Exc} :
    s.dataAddr ea n k = .error (.raises x) ↔ Refused s ea n k ∧ x = .memFault ea := by
  unfold State.dataAddr Refused
  by_cases ha : ea.toNat % sizeBytes n = 0 <;> cases hm : s.cfg.misaligned <;>
    cases ht : s.translate ea n k <;> simp [isAligned_eq, ha] <;> exact eq_comm

theorem State.dataAddr_faults {s : State} {ea : Word} {n : Size} {k : AccessKind} {f : Fault} :
    s.dataAddr ea n k = .error (.faults f)
      ↔ (ea.toNat % sizeBytes n ≠ 0 ∧ s.cfg.misaligned = .modelFault) ∧ f = .misaligned ea := by
  unfold State.dataAddr
  by_cases ha : ea.toNat % sizeBytes n = 0 <;> cases hm : s.cfg.misaligned <;>
    cases ht : s.translate ea n k <;> simp [isAligned_eq, ha] <;> exact eq_comm

/-- `Translate` depends on the mode, the parameters and memory, and on nothing else the core owns
(R66). -/
theorem State.translate_congr {s t : State} (hc : t.cfg = s.cfg) (hm : t.mode = s.mode)
    (hp : t.mem = s.mem) (hv : t.view = s.view) (a : Word) (n : Size) (k : AccessKind) :
    t.translate a n k = s.translate a n k := by
  simp [State.translate, hc, hm, hp, hv]

theorem State.dataAddr_congr {s t : State} (hc : t.cfg = s.cfg) (hm : t.mode = s.mode)
    (hp : t.mem = s.mem) (hv : t.view = s.view) (a : Word) (n : Size) (k : AccessKind) :
    t.dataAddr a n k = s.dataAddr a n k := by
  simp [State.dataAddr, hc, State.translate_congr hc hm hp hv]

theorem State.byteAt_congr {s t : State} (h : t.view = s.view) (p k : Word) :
    t.byteAt p k = s.byteAt p k := State.readByte_congr h _

theorem State.halfAt_congr {s t : State} (h : t.view = s.view) (hc : t.cfg = s.cfg) (p : Word) :
    t.halfAt p = s.halfAt p := by
  unfold State.halfAt
  rw [hc, State.byteAt_congr h, State.byteAt_congr h]

theorem State.wordAt_congr {s t : State} (h : t.view = s.view) (hc : t.cfg = s.cfg) (p : Word) :
    t.wordAt p = s.wordAt p := by
  unfold State.wordAt
  rw [hc, State.byteAt_congr h, State.byteAt_congr h, State.byteAt_congr h, State.byteAt_congr h]

/-! ## Loads -/

theorem assemble_one (b : Byte) : assemble [b] = b.setWidth 32 := by simp [assemble]

theorem assemble_two (b0 b1 : Byte) : assemble [b0, b1] = (b1 ++ b0).setWidth 32 := by
  apply BitVec.eq_of_getLsbD_eq
  intro i hi
  simp only [assemble, List.foldr, BitVec.getLsbD_or, BitVec.getLsbD_setWidth,
    BitVec.getLsbD_append, BitVec.getLsbD_shiftLeft]
  by_cases h8 : i < 8
  · simp [h8, hi]
  have f0 : b0.getLsbD i = false := BitVec.getLsbD_of_ge _ _ (by omega)
  by_cases h16 : i < 16
  · simp [h8, hi, f0, show i - 8 < 32 by omega]
  · have f1 : b1.getLsbD (i - 8) = false := BitVec.getLsbD_of_ge _ _ (by omega)
    simp [h8, hi, f0, f1]

theorem assemble_four (b0 b1 b2 b3 : Byte) :
    assemble [b0, b1, b2, b3] = b3 ++ b2 ++ b1 ++ b0 := by
  apply BitVec.eq_of_getLsbD_eq
  intro i hi
  simp only [assemble, List.foldr, BitVec.getLsbD_or, BitVec.getLsbD_setWidth,
    BitVec.getLsbD_shiftLeft]
  rw [show (b3 ++ b2 ++ b1 ++ b0 : Word) = ((b3 ++ b2 ++ b1 ++ b0 : BitVec (8 + 8 + 8 + 8))) from
    rfl]
  rw [BitVec.getLsbD_append, BitVec.getLsbD_append, BitVec.getLsbD_append]
  by_cases h8 : i < 8
  · simp [h8, hi]
  have f0 : b0.getLsbD i = false := BitVec.getLsbD_of_ge _ _ (by omega)
  have e1 : i - 8 - 8 = i - 16 := by omega
  have e2 : i - 16 - 8 = i - 24 := by omega
  by_cases h16 : i < 16
  · simp [h8, hi, f0, show i - 8 < 32 by omega, show i - 8 < 8 by omega]
  have f1 : b1.getLsbD (i - 8) = false := BitVec.getLsbD_of_ge _ _ (by omega)
  by_cases h24 : i < 24
  · simp [h8, hi, f0, f1, show i - 8 < 32 by omega, show ¬ i - 8 < 8 by omega, e1,
      show i - 16 < 32 by omega, show i - 16 < 8 by omega]
  have f2 : b2.getLsbD (i - 16) = false := BitVec.getLsbD_of_ge _ _ (by omega)
  simp [h8, hi, f0, f1, f2, show i - 8 < 32 by omega, show ¬ i - 8 < 8 by omega, e1, e2,
    show i - 16 < 32 by omega, show ¬ i - 16 < 8 by omega, show i - 24 < 32 by omega]

theorem State.loadBytes_byte (s : State) (p : Word) :
    s.loadBytes p .byte = (s.byteAt p 0).setWidth 32 := by
  rw [← assemble_one, State.loadBytes]
  cases s.cfg.byteOrder <;> rfl

theorem State.loadBytes_half (s : State) (p : Word) :
    s.loadBytes p .half = (s.halfAt p).setWidth 32 := by
  unfold State.loadBytes State.halfAt
  cases s.cfg.byteOrder <;> exact assemble_two _ _

theorem State.loadBytes_word (s : State) (p : Word) : s.loadBytes p .word = s.wordAt p := by
  unfold State.loadBytes State.wordAt
  cases s.cfg.byteOrder <;> exact assemble_four _ _ _ _

theorem State.memRead_ok {s : State} {ea : Word} {n : Size} {v : Word} :
    s.memRead ea n = .ok v ↔ ∃ p, Accessible s ea n .read p ∧ v = s.loadBytes p n := by
  unfold State.memRead
  constructor
  · intro h
    split at h
    · exact absurd h (by simp)
    · next p hp => exact ⟨p, State.dataAddr_ok.1 hp, by simpa using h.symm⟩
  · rintro ⟨p, hp, rfl⟩
    rw [State.dataAddr_ok.2 hp]

theorem State.memRead_error {s : State} {ea : Word} {n : Size} {e : AccessStop} :
    s.memRead ea n = .error e ↔ s.dataAddr ea n .read = .error e := by
  unfold State.memRead
  split <;> simp_all

/-! ## Stores -/

theorem State.memWrite_ok {s t : State} {ea : Word} {n : Size} {v : Word} :
    s.memWrite ea n v = .ok t
      ↔ ∃ p, Accessible s ea n .write p ∧ t = s.storeBytes p n v := by
  unfold State.memWrite
  constructor
  · intro h
    split at h
    · exact absurd h (by simp)
    · next p hp => exact ⟨p, State.dataAddr_ok.1 hp, by simpa using h.symm⟩
  · rintro ⟨p, hp, rfl⟩
    rw [State.dataAddr_ok.2 hp]

/-- Every byte of a store is at one of its addresses. -/
theorem mem_storeCells {o : ByteOrder} {p : Word} {n : Size} {v : Word} {c : Host.Cell}
    (h : c ∈ storeCells o p n v) : c.1 ∈ accessAddrs p n := by
  unfold storeCells at h
  exact (List.of_mem_zip (a := c.1) (b := c.2) h).1

theorem storeCells_length (o : ByteOrder) (p : Word) (n : Size) (v : Word) :
    (storeCells o p n v).length = sizeBytes n := by
  cases n <;> cases o <;> rfl

/-- The addresses of a store's bytes, in order. -/
theorem storeCells_addrs (o : ByteOrder) (p : Word) (n : Size) (v : Word) :
    (storeCells o p n v).map Prod.fst = (sizeOffsets n).map fun k => (p + k).toNat := by
  cases n <;> cases o <;> rfl

theorem accessAddrs_lt {p : Word} {n : Size} {a : Nat} (h : a ∈ accessAddrs p n) :
    a < 2 ^ 32 := by
  unfold accessAddrs at h
  obtain ⟨k, -, rfl⟩ := List.mem_map.1 h
  exact (p + k).isLt

/-- A store leaves every byte outside its addresses alone. -/
theorem State.readByte_storeBytes_of_ne (s : State) (p : Word) (n : Size) (v : Word) {a : Nat}
    (h : ∀ k ∈ sizeOffsets n, a ≠ (p + k).toNat) :
    (s.storeBytes p n v).readByte a = s.readByte a := by
  rw [State.readByte, State.view_storeBytes, Memory.read_perform_of_absent]
  · rfl
  · intro c hc hca
    have := mem_storeCells hc
    unfold accessAddrs at this
    obtain ⟨k, hk, he⟩ := List.mem_map.1 this
    exact h k hk (hca ▸ he.symm)

theorem offset_ne {p i j : Word} (h : i ≠ j) : (p + i).toNat ≠ (p + j).toNat := by
  intro e
  exact h (add_left_cancel (BitVec.eq_of_toNat_eq e))

theorem State.byteAt_storeBytes_byte (s : State) (p v : Word) :
    (s.storeBytes p .byte v).byteAt p 0 = v.extractLsb' 0 8 := by
  rw [State.byteAt, State.readByte, State.view_storeBytes]
  cases s.cfg.byteOrder <;> exact Memory.read_write_same _ _ _

theorem State.halfAt_storeBytes (s : State) (p v : Word) :
    (s.storeBytes p .half v).halfAt p = v.extractLsb' 0 16 := by
  have e : v.extractLsb' 8 8 ++ v.extractLsb' 0 8 = v.extractLsb' 0 16 := by
    apply BitVec.eq_of_getLsbD_eq
    intro i hi
    rw [BitVec.getLsbD_append]
    by_cases h : i < 8
    · simp [h, hi]
    · simp [h, hi, show i - 8 < 8 by omega, show 8 + (i - 8) = i by omega]
  have n01 : (p + 0).toNat ≠ (p + 1).toNat := offset_ne (by decide)
  rw [← e]
  simp only [State.halfAt, State.byteAt, State.readByte, State.view_storeBytes,
    State.storeBytes_cfg]
  cases s.cfg.byteOrder <;>
    simp only [storeCells, accessAddrs, sizeOffsets, arrange, splitBytes, List.map_cons,
      List.map_nil, List.zip_cons_cons, List.zip_nil_right, Memory.perform_cons,
      Memory.perform_nil, Memory.read_write, List.reverse_cons, List.reverse_nil, List.nil_append,
      List.cons_append, n01, n01.symm, if_true, if_false]

theorem State.wordAt_storeBytes (s : State) (p v : Word) :
    (s.storeBytes p .word v).wordAt p = v := by
  have e : v.extractLsb' 24 8 ++ v.extractLsb' 16 8 ++ v.extractLsb' 8 8 ++ v.extractLsb' 0 8
      = v := by
    apply BitVec.eq_of_getLsbD_eq
    intro i hi
    rw [BitVec.getLsbD_append, BitVec.getLsbD_append, BitVec.getLsbD_append]
    have e1 : i - 8 - 8 = i - 16 := by omega
    have e2 : i - 16 - 8 = i - 24 := by omega
    by_cases h8 : i < 8
    · simp [h8]
    by_cases h16 : i < 16
    · simp [h8, show i - 8 < 8 by omega, show 8 + (i - 8) = i by omega]
    by_cases h24 : i < 24
    · simp [h8, show ¬ i - 8 < 8 by omega, e1, show i - 16 < 8 by omega,
        show 16 + (i - 16) = i by omega]
    · simp [h8, show ¬ i - 8 < 8 by omega, e1, e2, show ¬ i - 16 < 8 by omega,
        show i - 24 < 8 by omega, show 24 + (i - 24) = i by omega]
  have n01 : (p + 0).toNat ≠ (p + 1).toNat := offset_ne (by decide)
  have n02 : (p + 0).toNat ≠ (p + 2).toNat := offset_ne (by decide)
  have n03 : (p + 0).toNat ≠ (p + 3).toNat := offset_ne (by decide)
  have n12 : (p + 1).toNat ≠ (p + 2).toNat := offset_ne (by decide)
  have n13 : (p + 1).toNat ≠ (p + 3).toNat := offset_ne (by decide)
  have n23 : (p + 2).toNat ≠ (p + 3).toNat := offset_ne (by decide)
  conv_rhs => rw [← e]
  simp only [State.wordAt, State.byteAt, State.readByte, State.view_storeBytes,
    State.storeBytes_cfg]
  cases s.cfg.byteOrder <;>
    simp only [storeCells, accessAddrs, sizeOffsets, arrange, splitBytes, List.map_cons,
      List.map_nil, List.zip_cons_cons, List.zip_nil_right, Memory.perform_cons,
      Memory.perform_nil, Memory.read_write, List.reverse_cons, List.reverse_nil, List.nil_append,
      List.cons_append, n01, n02, n03, n12, n13, n23, n01.symm, n02.symm, n03.symm, n12.symm,
      n13.symm, n23.symm, if_true, if_false]

/-! ## The stale addresses -/

theorem mem_insertAddr {l : List Nat} {a b : Nat} : b ∈ insertAddr l a ↔ b = a ∨ b ∈ l := by
  induction l with
  | nil => simp [insertAddr]
  | cons c l ih =>
    unfold insertAddr
    split
    · simp
    · split
      · next h => subst h; simp
      · simp [ih]
        tauto

theorem mem_foldl_insertAddr {l as : List Nat} {b : Nat} :
    b ∈ as.foldl insertAddr l ↔ b ∈ as ∨ b ∈ l := by
  induction as generalizing l with
  | nil => simp
  | cons a as ih =>
    rw [List.foldl_cons, ih, mem_insertAddr]
    simp only [List.mem_cons]
    tauto

theorem addrsRise_iff (l : List Nat) :
    addrsRise l = true ↔ l.Pairwise (· < ·) ∧ ∀ a ∈ l, a < 2 ^ 32 := by
  induction l with
  | nil => simp [addrsRise]
  | cons a l ih =>
    cases l with
    | nil => simp [addrsRise]
    | cons b l =>
      rw [addrsRise, Bool.and_eq_true, ih]
      simp only [Bool.and_eq_true, decide_eq_true_eq, List.pairwise_cons, List.mem_cons]
      constructor
      · rintro ⟨⟨h1, h2⟩, ⟨h3, h4⟩, h5⟩
        refine ⟨⟨?_, h3, h4⟩, ?_⟩
        · rintro c (rfl | hc)
          · exact h2
          · exact Nat.lt_trans h2 (h3 c hc)
        · rintro c (rfl | hc)
          · exact h1
          · exact h5 c hc
      · rintro ⟨⟨h1, h2, h3⟩, h4⟩
        exact ⟨⟨h4 a (.inl rfl), h1 b (.inl rfl)⟩, ⟨h2, h3⟩, fun c hc => h4 c (.inr hc)⟩

theorem addrsRise_insertAddr {l : List Nat} (h : addrsRise l = true) {a : Nat} (ha : a < 2 ^ 32) :
    addrsRise (insertAddr l a) = true := by
  rw [addrsRise_iff] at h ⊢
  refine ⟨?_, fun b hb => (mem_insertAddr.1 hb).elim (fun e => e ▸ ha) (h.2 b)⟩
  have hp := h.1
  clear h
  induction l with
  | nil => simp [insertAddr]
  | cons c l ih =>
    rw [List.pairwise_cons] at hp
    unfold insertAddr
    split
    · next hlt =>
      refine List.pairwise_cons.2 ⟨?_, List.pairwise_cons.2 hp⟩
      intro b hb
      rcases List.mem_cons.1 hb with rfl | hb
      · exact hlt
      · exact Nat.lt_trans hlt (hp.1 b hb)
    · split
      · exact List.pairwise_cons.2 hp
      · next h1 h2 =>
        refine List.pairwise_cons.2 ⟨?_, ih hp.2⟩
        intro b hb
        rcases mem_insertAddr.1 hb with rfl | hb
        · omega
        · exact hp.1 b hb

theorem addrsRise_foldl {l as : List Nat} (h : addrsRise l = true) (ha : ∀ a ∈ as, a < 2 ^ 32) :
    addrsRise (as.foldl insertAddr l) = true := by
  induction as generalizing l with
  | nil => exact h
  | cons a as ih =>
    exact ih (addrsRise_insertAddr h (ha a (by simp))) fun b hb => ha b (by simp [hb])

/-! ## The form of the state -/

theorem State.wf_iff (s : State) :
    s.wf = true ↔ Memory.wf s.mem = true ∧ queueWf s.writeQueue = true
      ∧ addrsRise s.stale = true ∧ pendingStale s.writeQueue s.stale = true := by
  simp [State.wf, Bool.and_eq_true, and_assoc]

/-- The form depends on memory, the write queue and the stale addresses only. -/
theorem State.wf_congr {s t : State} (hm : t.mem = s.mem) (hq : t.writeQueue = s.writeQueue)
    (hs : t.stale = s.stale) : t.wf = s.wf := by simp [State.wf, hm, hq, hs]

theorem queueWf_append {q r : List PendingStore} :
    queueWf (q ++ r) = true ↔ queueWf q = true ∧ queueWf r = true := by
  simp [queueWf, List.all_append]

theorem pendingStale_iff {q : List PendingStore} {l : List Nat} :
    pendingStale q l = true ↔ ∀ st ∈ q, ∀ c ∈ st, c.1 ∈ l := by
  simp [pendingStale, List.all_eq_true]

theorem queueWf_storeCells (o : ByteOrder) (p : Word) (n : Size) (v : Word) :
    queueWf [storeCells o p n v] = true := by
  have h : ∀ c ∈ storeCells o p n v, c.1 < 2 ^ 32 := fun c hc => accessAddrs_lt (mem_storeCells hc)
  have hl := storeCells_length o p n v
  simp only [queueWf, List.all_cons, List.all_nil, Bool.and_true, Bool.and_eq_true, hl,
    List.all_eq_true, decide_eq_true_eq]
  exact ⟨by cases n <;> rfl, h⟩

/-- Issuing a store keeps the form. -/
theorem State.wf_storeBytes {s : State} (h : s.wf = true) (p : Word) (n : Size) (v : Word) :
    (s.storeBytes p n v).wf = true := by
  rw [State.wf_iff] at h ⊢
  obtain ⟨hm, hq, hs, hp⟩ := h
  refine ⟨hm, queueWf_append.2 ⟨hq, queueWf_storeCells _ p n v⟩,
    addrsRise_foldl hs fun a ha => accessAddrs_lt ha, ?_⟩
  rw [pendingStale_iff] at hp ⊢
  intro st hst c hc
  rw [State.storeBytes_stale, mem_foldl_insertAddr]
  rw [State.storeBytes_writeQueue, List.mem_append] at hst
  rcases hst with hst | hst
  · exact .inr (hp st hst c hc)
  · rw [List.mem_singleton] at hst
    subst hst
    exact .inl (mem_storeCells hc)

/-- Performing the oldest stores keeps the form. -/
theorem State.wf_drain {s : State} (h : s.wf = true) (k : Nat) : (s.drain k).wf = true := by
  rw [State.wf_iff] at h ⊢
  obtain ⟨hm, hq, hs, hp⟩ := h
  rw [← List.take_append_drop k s.writeQueue, queueWf_append] at hq
  refine ⟨Memory.wf_foldl_perform hm hq.1, hq.2, hs, ?_⟩
  rw [pendingStale_iff] at hp ⊢
  exact fun st hst => hp st (List.mem_of_mem_drop hst)

theorem State.wf_boundary {s : State} (h : s.wf = true) : s.boundary.wf = true :=
  (State.wf_congr rfl rfl rfl : s.boundary.wf = (s.drain s.drainCount).wf).trans
    (State.wf_drain h s.drainCount)

/-- Flushing the write queue keeps the form. -/
theorem State.wf_flush {s : State} (h : s.wf = true) : s.flush.wf = true := by
  rw [State.wf_iff] at h ⊢
  exact ⟨Memory.wf_foldl_perform h.1 h.2.1, rfl, h.2.2.1, rfl⟩

theorem State.wf_fence {s : State} (h : s.wf = true) : s.fence.wf = true := by
  have hf := State.wf_flush h
  rw [State.wf_iff] at hf ⊢
  exact ⟨hf.1, rfl, rfl, rfl⟩

/-! ## Fetch -/

/-- Everything a fetch of one halfword needs to succeed, and what it returns (R65, R79). -/
theorem State.fetchHalf_ok {s : State} {a : Word} {h : Half} :
    s.fetchHalf a = .ok h ↔ Fetchable s a h := by
  have hs : ∀ p : Word, (accessAddrs p .half).any (fun b => s.stale.contains b) = true
      ↔ p.toNat ∈ s.stale ∨ (p + 1).toNat ∈ s.stale := by
    intro p
    have e : accessAddrs p .half = [(p + 0).toNat, (p + 1).toNat] := rfl
    rw [e, add_zero]
    simp only [List.any_cons, List.any_nil, Bool.or_false, Bool.or_eq_true, List.contains_iff_mem]
  have e : ∀ p : Word, halfOfBytes s.cfg.byteOrder (s.readByte p.toNat) (s.readByte (p + 1).toNat)
      = s.halfAt p := by
    intro p
    have e0 : s.byteAt p 0 = s.readByte p.toNat := by rw [State.byteAt, add_zero]
    unfold State.halfAt halfOfBytes
    rw [e0]
    rfl
  unfold State.fetchHalf Fetchable
  cases ht : s.translate a .half .fetch with
  | refused => simp
  | permitted p =>
    dsimp only
    rw [e]
    simp only [Bool.and_eq_true, hs, Bool.not_eq_true']
    cases hc : s.cfg.ifetchCoherent
    · by_cases hn : p.toNat ∈ s.stale ∨ (p + 1).toNat ∈ s.stale
      · rw [if_pos ⟨rfl, hn⟩]
        simp only [reduceCtorEq, Translation.permitted.injEq, Bool.false_eq_true, false_or,
          false_iff, not_exists]
        rintro q ⟨rfl, -, h1, h2⟩
        exact hn.elim h1 h2
      · rw [if_neg fun hh => hn hh.2]
        simp only [Except.ok.injEq, Translation.permitted.injEq, Bool.false_eq_true, false_or]
        exact ⟨fun hh => ⟨p, rfl, hh, not_or.1 hn⟩, by rintro ⟨q, rfl, hh, -⟩; exact hh⟩
    · simp

/-- A fetch that `Translate` refuses (R67). -/
theorem State.fetchHalf_refused {s : State} {a : Word}
    (h : s.translate a .half .fetch = .refused) :
    s.fetchHalf a = .error (.raises (.memFault a)) := by
  simp [State.fetchHalf, h]

/-- The parts of fetch that do not depend on the registers. -/
theorem State.fetchHalf_congr {s t : State} (hc : t.cfg = s.cfg) (hm : t.mode = s.mode)
    (hp : t.mem = s.mem) (hv : t.view = s.view) (hs : t.stale = s.stale) (a : Word) :
    t.fetchHalf a = s.fetchHalf a := by
  have e : ∀ a, t.readByte a = s.readByte a := State.readByte_congr hv
  simp [State.fetchHalf, hc, hs, e, State.translate_congr hc hm hp hv]

end Sys2Proof.Machine
end

