-- ==== Sys2Proof/Laws/Decode.lean ====
section
/-!
SUPPORT. The laws of the fields of INST: packing and unpacking are inverse, a register field is
never 0xf, and the length rule (R92) read off the four fields.
-/

namespace Sys2Proof

/-! ## Fields and registers -/

@[simp] theorem Nib.ofBits_bits (n : Nib) : Nib.ofBits n.bits = n := by cases n <;> rfl

@[simp] theorem Nib.bits_ofBits (v : BitVec 4) : (Nib.ofBits v).bits = v := by
  revert v; decide

@[simp] theorem Reg.reg?_nib (r : Reg) : r.nib.reg? = some r := by
  cases r with
  | pc => rfl
  | gp g => cases g <;> rfl

/-- A register's index is never 0xf (R95). -/
@[simp] theorem Reg.nib_ne_xf (r : Reg) : r.nib ≠ .xf := by
  cases r with
  | pc => simp [Reg.nib]
  | gp g => cases g <;> simp [Reg.nib]

@[simp] theorem Reg.xf_ne_nib (r : Reg) : Nib.xf ≠ r.nib := (Reg.nib_ne_xf r).symm

theorem Nib.reg?_eq_some {n : Nib} {r : Reg} : n.reg? = some r ↔ n = r.nib := by
  constructor
  · intro h
    cases n <;> simp only [Nib.reg?, Option.some.injEq, reduceCtorEq] at h <;> subst h <;> rfl
  · rintro rfl
    exact Reg.reg?_nib r

theorem Nib.reg?_eq_none {n : Nib} : n.reg? = none ↔ n = .xf := by
  cases n <;> simp [Nib.reg?]

@[simp] theorem Nib.reg?_xf : Nib.reg? .xf = none := rfl

theorem Reg.nib_injective {r q : Reg} (h : r.nib = q.nib) : r = q := by
  have := congrArg Nib.reg? h
  simpa using this

/-! ## INST -/

/-- The bits of INST, field by field (R8, R91). -/
theorem packInst_getLsbD (c b a d : Nib) (i : Nat) :
    (packInst c b a d).getLsbD i
      = if i < 4 then d.bits.getLsbD i else if i < 8 then a.bits.getLsbD (i - 4)
        else if i < 12 then b.bits.getLsbD (i - 8) else c.bits.getLsbD (i - 12) := by
  change ((c.bits ++ b.bits ++ a.bits ++ d.bits : BitVec (4 + 4 + 4 + 4))).getLsbD i = _
  simp only [BitVec.getLsbD_append]
  by_cases h4 : i < 4
  · simp [h4]
  by_cases h8 : i < 8
  · simp [h4, h8, show i - 4 < 4 by omega]
  have e : i - 4 - 4 = i - 8 := by omega
  by_cases h12 : i < 12
  · simp [h4, h8, h12, show ¬ i - 4 < 4 by omega, e]
    omega
  · simp [h4, h8, h12, show ¬ i - 4 < 4 by omega, e, show ¬ i - 8 < 4 by omega,
      show i - 8 - 4 = i - 12 by omega]

theorem packInst_extract (c b a d : Nib) :
    (packInst c b a d).extractLsb' 12 4 = c.bits ∧ (packInst c b a d).extractLsb' 8 4 = b.bits ∧
      (packInst c b a d).extractLsb' 4 4 = a.bits ∧
      (packInst c b a d).extractLsb' 0 4 = d.bits := by
  refine ⟨?_, ?_, ?_, ?_⟩ <;> apply BitVec.eq_of_getLsbD_eq <;> intro i hi <;>
    rw [BitVec.getLsbD_extractLsb', packInst_getLsbD]
  · simp [hi, show ¬ 12 + i < 4 by omega, show ¬ 12 + i < 8 by omega,
      show ¬ 12 + i < 12 by omega, show 12 + i - 12 = i by omega]
  · rw [if_neg (by omega), if_neg (by omega), if_pos (by omega)]
    simp [hi]
  · rw [if_neg (by omega), if_pos (by omega)]
    simp [hi]
  · simp [hi]

@[simp] theorem fieldC_pack (c b a d : Nib) : fieldC (packInst c b a d) = c := by
  rw [fieldC, (packInst_extract c b a d).1, Nib.ofBits_bits]
@[simp] theorem fieldB_pack (c b a d : Nib) : fieldB (packInst c b a d) = b := by
  rw [fieldB, (packInst_extract c b a d).2.1, Nib.ofBits_bits]
@[simp] theorem fieldA_pack (c b a d : Nib) : fieldA (packInst c b a d) = a := by
  rw [fieldA, (packInst_extract c b a d).2.2.1, Nib.ofBits_bits]
@[simp] theorem fieldD_pack (c b a d : Nib) : fieldD (packInst c b a d) = d := by
  rw [fieldD, (packInst_extract c b a d).2.2.2, Nib.ofBits_bits]

/-- INST is its four fields (R90). -/
theorem packInst_fields (inst : Half) :
    packInst (fieldC inst) (fieldB inst) (fieldA inst) (fieldD inst) = inst := by
  apply BitVec.eq_of_getLsbD_eq
  intro i hi
  rw [packInst_getLsbD]
  simp only [fieldC, fieldB, fieldA, fieldD, Nib.bits_ofBits, BitVec.getLsbD_extractLsb']
  by_cases h4 : i < 4
  · simp [h4]
  by_cases h8 : i < 8
  · simp [h4, h8, show i - 4 < 4 by omega, show 4 + (i - 4) = i by omega]
  by_cases h12 : i < 12
  · simp [h4, h8, h12, show i - 8 < 4 by omega, show 8 + (i - 8) = i by omega]
  · simp [h4, h8, h12, show i - 12 < 4 by omega, show 12 + (i - 12) = i by omega]

/-- The decoder reads the four fields and nothing else (R100). -/
@[simp] theorem decodeInst_pack (c b a d : Nib) :
    decodeInst (packInst c b a d) = decodeFields c b a d := by simp [decodeInst]

@[simp] theorem encodeInst_eq (i : Instr) :
    encodeInst i = packInst i.fields.1 i.fields.2.1 i.fields.2.2.1 i.fields.2.2.2 := rfl

/-! ## The length rule -/

theorem Nib.bits_eq_allOnes (n : Nib) : n.bits = BitVec.allOnes 4 ↔ n = .xf := by
  cases n <;> decide

theorem packInst_extract5 (c b a d : Nib) :
    (packInst c b a d).extractLsb' 11 5 = BitVec.allOnes 5 ↔ c = .xf ∧ 8 ≤ b.val := by
  have e : (packInst c b a d).extractLsb' 11 5 = c.bits ++ b.bits.extractLsb' 3 1 := by
    apply BitVec.eq_of_getLsbD_eq
    intro i hi
    rw [BitVec.getLsbD_extractLsb', packInst_getLsbD, BitVec.getLsbD_append]
    cases i with
    | zero => simp
    | succ i =>
      simp [hi, show ¬ 11 + (i + 1) < 4 by omega, show ¬ 11 + (i + 1) < 8 by omega,
        show ¬ 11 + (i + 1) < 12 by omega, show 11 + (i + 1) - 12 = i by omega]
  rw [e]
  cases c <;> cases b <;> decide

/-- The length rule (R92), read off the fields. -/
theorem instLength_pack (c b a d : Nib) :
    instLength (packInst c b a d)
      = if (c = .xf ∧ 8 ≤ b.val) ∨ b = .xf ∨ a = .xf ∨ d = .xf then 6 else 2 := by
  obtain ⟨-, hb, ha, hd⟩ := packInst_extract c b a d
  simp only [instLength, packInst_extract5, hb, ha, hd, Nib.bits_eq_allOnes]

theorem instLength_of {i : Instr} {c b a d : Nib} (h : i.fields = (c, b, a, d)) :
    instLength (encodeInst i)
      = if (c = .xf ∧ 8 ≤ b.val) ∨ b = .xf ∨ a = .xf ∨ d = .xf then 6 else 2 := by
  rw [encodeInst_eq, h, instLength_pack]

/-- The one halfword of an instruction whose fields make it short (R92). -/
theorem encode_short {i : Instr} {c b a d : Nib} (h : i.fields = (c, b, a, d))
    (hs : ¬ ((c = .xf ∧ 8 ≤ b.val) ∨ b = .xf ∨ a = .xf ∨ d = .xf)) :
    encode i = [packInst c b a d] := by
  have hl := instLength_of h
  rw [if_neg hs] at hl
  rw [encode, hl, if_neg (by decide), encodeInst_eq, h]

/-- The three halfwords of an instruction whose fields make it long (R92, R65). -/
theorem encode_long {i : Instr} {c b a d : Nib} (h : i.fields = (c, b, a, d))
    (hl : (c = .xf ∧ 8 ≤ b.val) ∨ b = .xf ∨ a = .xf ∨ d = .xf) :
    encode i = [packInst c b a d, i.fieldI.extractLsb' 0 16, i.fieldI.extractLsb' 16 16] := by
  have h6 := instLength_of h
  rw [if_pos hl] at h6
  rw [encode, h6, if_pos rfl, encodeInst_eq, h]

/-! ## FIELD_I of a branch -/

@[simp] theorem relOf_branchField (off : PcBits) (rel : Bool) :
    relOf (branchField off rel) = rel := by
  unfold relOf branchField
  change ((off ++ BitVec.ofBool rel : BitVec (31 + 1))).getLsbD 0 = rel
  rw [BitVec.getLsbD_append]
  cases rel <;> rfl

@[simp] theorem offsetOf_branchField (off : PcBits) (rel : Bool) :
    offsetOf (branchField off rel) = off := by
  apply BitVec.eq_of_getLsbD_eq
  intro i hi
  unfold offsetOf branchField
  rw [BitVec.getLsbD_extractLsb']
  change (decide (i < 31) && ((off ++ BitVec.ofBool rel : BitVec (31 + 1))).getLsbD (1 + i)) = _
  rw [BitVec.getLsbD_append]
  simp [hi]

/-- FIELD_I of a branch is its OFFSET and its R (R98). -/
theorem branchField_parts (i : Word) : branchField (offsetOf i) (relOf i) = i := by
  apply BitVec.eq_of_getLsbD_eq
  intro k hk
  unfold branchField
  change ((offsetOf i ++ BitVec.ofBool (relOf i) : BitVec (31 + 1))).getLsbD k = _
  rw [BitVec.getLsbD_append]
  cases k with
  | zero => simp [relOf]
  | succ k => simp [offsetOf, show k < 31 by omega, Nat.add_comm]

/-- The two halfwords of FIELD_I give it back (R65). -/
theorem fieldI_halves (i : Word) : i.extractLsb' 16 16 ++ i.extractLsb' 0 16 = i := by
  apply BitVec.eq_of_getLsbD_eq
  intro k hk
  rw [BitVec.getLsbD_append]
  by_cases h : k < 16
  · simp [h]
  · simp [h, show k - 16 < 16 by omega, show 16 + (k - 16) = k by omega]

/-! ## Bytes -/

/-- The two bytes of a halfword give it back (R62). -/
theorem halfOfBytes_bytesOfHalf (o : ByteOrder) (h : Half) :
    ∃ b0 b1, bytesOfHalf o h = [b0, b1] ∧ halfOfBytes o b0 b1 = h := by
  have e : h.extractLsb' 8 8 ++ h.extractLsb' 0 8 = h := by
    apply BitVec.eq_of_getLsbD_eq
    intro k hk
    rw [BitVec.getLsbD_append]
    by_cases hk8 : k < 8
    · simp [hk8]
    · simp [hk8, show k - 8 < 8 by omega, show 8 + (k - 8) = k by omega]
  cases o
  · exact ⟨_, _, rfl, e⟩
  · exact ⟨_, _, rfl, e⟩

/-- A list of halfwords, laid out in bytes, reads back (R65, R93). -/
theorem halvesOfBytes_flatMap (o : ByteOrder) (hs : List Half) :
    halvesOfBytes o (hs.flatMap (bytesOfHalf o)) = hs := by
  induction hs with
  | nil => rfl
  | cons h hs ih =>
    obtain ⟨b0, b1, hb, hh⟩ := halfOfBytes_bytesOfHalf o h
    rw [List.flatMap_cons, hb]
    simp [halvesOfBytes, hh, ih]

end Sys2Proof
end

