-- ==== Sys2Proof/Laws/Frames.lean ====
section
/-!
SUPPORT. What the shared operations that end an instruction do, in the terms of
Sys2Proof/Safety.lean: each lemma says once everything an operation changes and leaves alone.
-/

namespace Sys2Proof.Machine

theorem pcAddr_pcOf_eq (v : Word) : pcAddr (pcOf v) = evenPart v := pcAddr_pcOf v

@[simp] theorem evenPart_pcAddr (p : PcBits) : evenPart (pcAddr p) = pcAddr p := by
  rw [← pcAddr_pcOf_eq, pcOf_pcAddr]

@[simp] theorem evenPart_curPc (s : State) : evenPart s.curPc = s.curPc := by
  obtain ⟨p, hp⟩ := s.curPc_eq_pcAddr
  rw [hp, evenPart_pcAddr]

/-- A read of index 0 (R12). -/
theorem State.readX_pc (s : State) : s.readX .pc = evenPart (s.curPc + s.cfg.pcReadBias) :=
  pcAddr_pcOf_eq _

/-- With `PC_READ_BIAS` 0 index 0 reads the address of the instruction (R37, D3). -/
theorem State.readX_pc_of_noBias {s : State} (h : s.cfg.pcReadBias = 0) :
    s.readX .pc = s.curPc := by
  rw [State.readX_pc, h, show s.curPc + 0 = s.curPc from BitVec.add_zero _, evenPart_curPc]

@[simp] theorem State.readX_gp (s : State) (g : Gpr) : s.readX (.gp g) = s.gprs.read g := rfl

/-- Everything the base of a relative branch can be: what index 0 reads, or the branch's own address
(R260; notes/assumptions/7.md). -/
theorem State.branchBase_cases (s : State) :
    s.cfg.branchBase = .asRead ∧ s.branchBase = s.readX .pc
      ∨ s.cfg.branchBase = .ownAddress ∧ s.branchBase = s.curPc := by
  unfold State.branchBase
  cases s.cfg.branchBase
  · exact .inl ⟨rfl, rfl⟩
  · exact .inr ⟨rfl, rfl⟩

/-- With `PC_READ_BIAS` 0 both bases are the branch's own address (D4). -/
theorem State.branchBase_of_noBias {s : State} (h : s.cfg.pcReadBias = 0) :
    s.branchBase = s.curPc := by
  rcases s.branchBase_cases with ⟨-, hb⟩ | ⟨-, hb⟩
  · rw [hb, State.readX_pc_of_noBias h]
  · exact hb

/-- Bit 0 of the base is clear (R35). -/
@[simp] theorem State.evenPart_branchBase (s : State) : evenPart s.branchBase = s.branchBase := by
  rcases s.branchBase_cases with ⟨-, hb⟩ | ⟨-, hb⟩
  · rw [hb]; exact evenPart_pcAddr _
  · rw [hb, evenPart_curPc]

/-- A state that has the same memory, queue and stale addresses keeps memory. -/
theorem KeepsMemory.of_eq {s t : State} (hm : t.mem = s.mem) (hq : t.writeQueue = s.writeQueue)
    (hs : t.stale = s.stale) : KeepsMemory s t :=
  ⟨State.readByte_congr (State.view_congr hm hq), hm, hq, hs⟩

/-- A jump changes the current program counter alone (R12, R35). -/
theorem OnlyJumps.jump (s : State) (v : Word) : OnlyJumps s (s.jump v) (evenPart v) := by
  refine ⟨State.curPc_jump v s, ?_, ?_, ⟨?_, ?_⟩, KeepsMemory.of_eq ?_ ?_ ?_, ?_, ?_, ?_⟩ <;>
    simp +contextual

/-- The sequential advance changes the current program counter alone (R14). -/
theorem OnlyJumps.advance (s : State) (len : Word) :
    OnlyJumps s (s.advance len) (evenPart (s.curPc + len)) := OnlyJumps.jump s _

theorem evenPart_curPc_add (s : State) (q : PcBits) :
    evenPart (s.curPc + pcAddr q) = s.curPc + pcAddr q := by
  obtain ⟨p, hp⟩ := s.curPc_eq_pcAddr
  rw [hp, ← pcAddr_pcOf_eq, pcAddr_pcOf_add]

/-- Bit 0 of a branch target is clear (R260). -/
@[simp] theorem State.evenPart_branchTarget (s : State) (off : PcBits) (rel : Bool) :
    evenPart (s.branchTarget off rel) = s.branchTarget off rel := by
  cases rel
  · exact evenPart_pcAddr off
  · show evenPart (s.branchBase + pcAddr off) = s.branchBase + pcAddr off
    rw [← State.evenPart_branchBase, ← pcAddr_pcOf_eq, ← pcAddr_pcOf_eq, pcAddr_pcOf_add]

/-- The two lengths keep an address even: the form in which the lemmas below ask for it (R92). -/
theorem evenPart_curPc_two (s : State) : evenPart (s.curPc + 2) = s.curPc + 2 := by
  rw [← pcAddr_one, evenPart_curPc_add]

theorem evenPart_curPc_six (s : State) : evenPart (s.curPc + 6) = s.curPc + 6 := by
  rw [← pcAddr_three, evenPart_curPc_add]

theorem OnlyJumps.advance_two (s : State) : OnlyJumps s (s.advance 2) (s.curPc + 2) :=
  evenPart_curPc_two s ▸ OnlyJumps.advance s 2

theorem OnlyJumps.advance_six (s : State) : OnlyJumps s (s.advance 6) (s.curPc + 6) :=
  evenPart_curPc_six s ▸ OnlyJumps.advance s 6

/-- Setting a general register and advancing (R12, R14). -/
theorem WritesReg.setGpr_advance (s : State) (len : Word) (g : Gpr) (v : Word)
    (h : evenPart (s.curPc + len) = s.curPc + len) :
    WritesReg s ((s.setGpr g v).advance len) len (.gp g) v := by
  refine ⟨fun r => ?_, ?_, ?_, ⟨?_, ?_⟩, KeepsMemory.of_eq ?_ ?_ ?_, ?_, ?_, ?_⟩
  · simp [Gprs.read_write, eq_comm]
  · simpa [h] using (OnlyJumps.advance (s.setGpr g v) len).1
  all_goals simp +contextual

/-- `x[d] <- v` writes that register and nothing else (R12, R14). -/
theorem WritesReg.writeX (s : State) (len : Word) (d : Reg) (v : Word)
    (h : evenPart (s.curPc + len) = s.curPc + len) :
    WritesReg s (s.writeX len d v) len d v := by
  cases d with
  | gp g => exact WritesReg.setGpr_advance s len g v h
  | pc =>
    obtain ⟨hpc, hg, hm, hother, hmem, henv⟩ := OnlyJumps.jump s v
    exact ⟨fun r => by simp [State.writeX], hpc, hm, hother, hmem, henv⟩

/-- A write of TPC by name writes TPC and nothing else but SPC's advance (R13, R14). -/
theorem WritesTpc.writeTpc (s : State) (len v : Word)
    (h : evenPart (s.curPc + len) = s.curPc + len) :
    WritesTpc s (s.writeTpc len v) len v := by
  have k := s.writeTpc_keeps len v
  refine ⟨?_, ?_, ?_, k.1, k.2.1, KeepsMemory.of_eq k.2.2.1 k.2.2.2.1 k.2.2.2.2.1, k.2.2.2.2.2⟩
  · cases h : s.mode <;> simp [State.writeTpc, h, pcAddr_pcOf_eq]
  · intro h
    simp [State.writeTpc, h]
  · intro hm
    have hc : (s.setTpc v).curPc = s.curPc := by simp [State.curPc, hm]
    simpa [State.writeTpc, hm, hc, h] using (OnlyJumps.advance (s.setTpc v) len).1

/-- A change of mode alone (R376, R380). -/
theorem OnlyMode.setMode (s : State) (m : Mode) : OnlyMode s (s.setMode m) m :=
  ⟨rfl, rfl, rfl, rfl, KeepsMemory.of_eq rfl rfl rfl, rfl, rfl, rfl⟩

/-- Issuing a store and advancing (R64, R300). -/
theorem Stores.storeBytes_advance (s : State) (len : Word) (n : Size) (p v : Word)
    (h : evenPart (s.curPc + len) = s.curPc + len) :
    Stores s ((s.storeBytes p n v).advance len) len n p v := by
  have hv := State.view_advance len (s.storeBytes p n v)
  have hc := State.advance_cfg len (s.storeBytes p n v)
  obtain ⟨hpc, hg, hm, hother, -, henv⟩ := OnlyJumps.advance (s.storeBytes p n v) len
  refine ⟨?_, fun a ha => ?_, ⟨_, State.advance_writeQueue .., ?_⟩,
    State.advance_mem .., fun a => ?_, hg, ?_, hm, hother, henv⟩
  · cases n with
    | byte => exact (State.byteAt_congr hv p 0).trans (State.byteAt_storeBytes_byte s p v)
    | half => exact (State.halfAt_congr hv hc p).trans (State.halfAt_storeBytes s p v)
    | word => exact (State.wordAt_congr hv hc p).trans (State.wordAt_storeBytes s p v)
  · rw [State.readByte_congr hv]
    exact State.readByte_storeBytes_of_ne s p n v ha
  · exact storeCells_addrs _ p n v
  · rw [State.advance_stale]
    simp [State.storeBytes, mem_foldl_insertAddr, accessAddrs, or_comm, eq_comm]
  · rw [hpc, State.curPc_storeBytes, h]

/-! ## Accesses that pass -/

/-- A load whose access passes completes: it writes the extended value to its data register and
nothing else (R300). -/
theorem load_completes {s : State} {len : Word} {n : Size} {ext : Word → Word} {ea p : Word}
    {d : Reg} (hl : evenPart (s.curPc + len) = s.curPc + len) (h : Accessible s ea n .read p) :
    ∃ t, load len n ext ea d s = .next t ∧ WritesReg s t len d (ext (s.loadBytes p n)) := by
  refine ⟨_, ?_, WritesReg.writeX s len d _ hl⟩
  rw [load, State.memRead_ok.2 ⟨p, h, rfl⟩]

/-- A load into TPC whose access passes completes (R300, R301). -/
theorem loadTpc_completes {s : State} {len : Word} {n : Size} {ext : Word → Word} {ea p : Word}
    (hl : evenPart (s.curPc + len) = s.curPc + len) (h : Accessible s ea n .read p) :
    ∃ t, loadTpc len n ext ea s = .next t ∧ WritesTpc s t len (ext (s.loadBytes p n)) := by
  refine ⟨_, ?_, WritesTpc.writeTpc s len _ hl⟩
  rw [loadTpc, State.memRead_ok.2 ⟨p, h, rfl⟩]

/-- A store whose access passes completes (R300). -/
theorem store_completes {s : State} {len : Word} {n : Size} {ea p v : Word}
    (hl : evenPart (s.curPc + len) = s.curPc + len) (h : Accessible s ea n .write p) :
    ∃ t, store len n ea v s = .next t ∧ Stores s t len n p v := by
  refine ⟨_, ?_, Stores.storeBytes_advance s len n p v hl⟩
  rw [store, State.memWrite_ok.2 ⟨p, h, rfl⟩]

end Sys2Proof.Machine
end

