-- ==== Sys2Proof/Laws/Exec.lean ====
section
/-!
SUPPORT. Everything an instruction can do when it answers a next state, said once: `ExecNext` lists
the shapes of the next state with what each says of the instruction, and `exec_next` proves that
there is no other.
-/

namespace Sys2Proof.Machine

/-- The length of an instruction as a word (R92). -/
def lenWord (i : Instr) : Word := BitVec.ofNat 32 i.length

/-- The next states of an instruction. -/
inductive ExecNext (i : Instr) (s : State) : State → Prop
  /-- The instruction writes `x[d]`, or a general register through `xt[d]` (R12, R13). -/
  | writes (d : Reg) (v : Word) (hd : i.fields.2.2.2 = d.nib)
      (hi : writesTpcByName i = false) : ExecNext i s (s.writeX (lenWord i) d v)
  /-- The instruction writes TPC by name (R13, R39). -/
  | writesTpc (v : Word) (hi : writesTpcByName i = true)
      (hd : i.fields.2.2.2 = .x0 ∨ i.fields.2.2.2 = .xf) :
      ExecNext i s (s.writeTpc (lenWord i) v)
  /-- A branch that is taken (R260). -/
  | jumps (v : Word) (hd : i.fields.2.2.2 = .xf) (hi : writesTpcByName i = false) :
      ExecNext i s (s.jump v)
  /-- A branch that is not taken (R260). -/
  | goesOn (hd : i.fields.2.2.2 = .xf) (hi : writesTpcByName i = false) :
      ExecNext i s (s.advance (lenWord i))
  /-- A store (R300). -/
  | stores (ea : Word) (n : Size) (p v : Word) (ha : dataAccess i s = some (ea, n, .write))
      (hp : Accessible s ea n .write p) (hi : writesTpcByName i = false) :
      ExecNext i s ((s.storeBytes p n v).advance (lenWord i))
  /-- FILL, BREAK and SYSCALL (R375). -/
  | enters (hi : i = .fill ∨ i = .brk ∨ i = .syscall) : ExecNext i s (s.enterScheduler 2)
  /-- STU (R173). -/
  | returns (hi : i = .stu) : ExecNext i s (s.returnToTask 2)
  /-- FENCE (R175). -/
  | fences (hi : i = .fence) : ExecNext i s (s.fence.advance 2)
  /-- WFENCE (R176). -/
  | flushes (hi : i = .wfence) : ExecNext i s (s.flush.advance 2)
  /-- The exception of a reserved encoding or a refused access, in TASK mode (R376). -/
  | raises (hm : s.mode = .task)
      (hi : i.isReserved = true ∨ ∃ ea n k, dataAccess i s = some (ea, n, k) ∧ Refused s ea n k) :
      ExecNext i s (s.setMode .scheduler)

theorem ExecNext.of_eq {i : Instr} {s t u : State} (h : ExecNext i s u)
    (e : (.next u : Result) = .next t) : ExecNext i s t := by
  cases e
  exact h

theorem ExecNext.load {i : Instr} {s t : State} {n : Size} {ext : Word → Word} {ea : Word}
    {d : Reg} (h : load (lenWord i) n ext ea d s = .next t)
    (ha : dataAccess i s = some (ea, n, .read)) (hd : i.fields.2.2.2 = d.nib)
    (hi : writesTpcByName i = false) : ExecNext i s t := by
  rcases load_next h with ⟨v, -, rfl⟩ | ⟨x, hx, hm, rfl⟩
  · exact .writes d _ hd hi
  · exact .raises hm (.inr ⟨ea, n, .read, ha,
      (State.dataAddr_raises.1 (State.memRead_error.1 hx)).1⟩)

theorem ExecNext.loadTpc {i : Instr} {s t : State} {n : Size} {ext : Word → Word} {ea : Word}
    (h : loadTpc (lenWord i) n ext ea s = .next t)
    (ha : dataAccess i s = some (ea, n, .read)) (hi : writesTpcByName i = true)
    (hd : i.fields.2.2.2 = .xf) : ExecNext i s t := by
  rcases loadTpc_next h with ⟨v, -, rfl⟩ | ⟨x, hx, hm, rfl⟩
  · exact .writesTpc _ hi (.inr hd)
  · exact .raises hm (.inr ⟨ea, n, .read, ha,
      (State.dataAddr_raises.1 (State.memRead_error.1 hx)).1⟩)

theorem ExecNext.store {i : Instr} {s t : State} {n : Size} {ea v : Word}
    (h : store (lenWord i) n ea v s = .next t)
    (ha : dataAccess i s = some (ea, n, .write)) (hi : writesTpcByName i = false) :
    ExecNext i s t := by
  rcases store_next h with ⟨p, hp, rfl⟩ | ⟨x, hx, hm, rfl⟩
  · exact .stores ea n p v ha (State.dataAddr_ok.1 hp) hi
  · exact .raises hm (.inr ⟨ea, n, .write, ha, (State.dataAddr_raises.1 hx).1⟩)

theorem ExecNext.branch {i : Instr} {s t : State} {c : Bool} {off : PcBits} {rel : Bool}
    (h : branch c off rel s = .next t) (hl : lenWord i = 6) (hd : i.fields.2.2.2 = .xf)
    (hi : writesTpcByName i = false) : ExecNext i s t := by
  rw [branch_next] at h
  cases h
  split
  · exact .jumps _ hd hi
  · exact hl ▸ .goesOn hd hi

theorem ExecNext.raise {i : Instr} {s t : State} (h : s.raise .sii = .next t)
    (hi : i.isReserved = true) : ExecNext i s t := by
  obtain ⟨hm, rfl⟩ := State.raise_next h
  exact .raises hm (.inl hi)

/-- An instruction that answers a next state answers one of `ExecNext`. -/
theorem exec_next {i : Instr} {s t : State} (h : exec i s = .next t) : ExecNext i s t := by
  cases i
  case fill => exact .of_eq (.enters (by simp)) h
  case brk => exact .of_eq (.enters (by simp)) h
  case syscall => exact .of_eq (.enters (by simp)) h
  case stu => exact .of_eq (.returns rfl) h
  case fence => exact .of_eq (.fences rfl) h
  case wfence => exact .of_eq (.flushes rfl) h
  case woi => exact .of_eq (.writes .pc _ rfl rfl) h
  case xmov a d =>
    cases d with
    | pc => exact .of_eq (.writesTpc _ rfl (.inl rfl)) h
    | gp g => exact .of_eq (.writes (.gp g) _ rfl rfl) h
  case lit d imm =>
    cases d with
    | pc => exact .of_eq (.writesTpc _ rfl (.inl rfl)) h
    | gp g => exact .of_eq (.writes (.gp g) _ rfl rfl) h
  all_goals first
    | exact .of_eq (.writes _ _ rfl rfl) h
    | exact .raise h rfl
    | exact .branch h rfl rfl rfl
    | exact .store h rfl rfl
    | exact .load h rfl rfl rfl
    | exact .loadTpc h rfl rfl rfl

end Sys2Proof.Machine
end

