-- ==== Sys2Proof/Laws/PerInstr.lean ====
section
/-!
SUPPORT. The families of lemmas that are proved instruction by instruction: one lemma for each
constructor of `Instr`.
-/

namespace Sys2Proof.Laws

/-- The length that the opcode table gives an instruction's row is the length that the length
rule reads off its INST (R92, R96). -/
def LengthRule.Statement (i : Instr) : Prop :=
  i.wf = true → instLength (encodeInst i) = i.length
theorem LengthRule.xor (b a d : Reg) : LengthRule.Statement (.xor b a d) := fun _ =>
  ((instLength_of rfl).trans (by simp) : _ = 2)
theorem LengthRule.or (b a d : Reg) : LengthRule.Statement (.or b a d) := fun _ =>
  ((instLength_of rfl).trans (by simp) : _ = 2)
theorem LengthRule.and (b a d : Reg) : LengthRule.Statement (.and b a d) := fun _ =>
  ((instLength_of rfl).trans (by simp) : _ = 2)
theorem LengthRule.sub (b a d : Reg) : LengthRule.Statement (.sub b a d) := fun _ =>
  ((instLength_of rfl).trans (by simp) : _ = 2)
theorem LengthRule.add (b a d : Reg) : LengthRule.Statement (.add b a d) := fun _ =>
  ((instLength_of rfl).trans (by simp) : _ = 2)
theorem LengthRule.shl (b a d : Reg) : LengthRule.Statement (.shl b a d) := fun _ =>
  ((instLength_of rfl).trans (by simp) : _ = 2)
theorem LengthRule.shr (b a d : Reg) : LengthRule.Statement (.shr b a d) := fun _ =>
  ((instLength_of rfl).trans (by simp) : _ = 2)
theorem LengthRule.sar (b a d : Reg) : LengthRule.Statement (.sar b a d) := fun _ =>
  ((instLength_of rfl).trans (by simp) : _ = 2)
theorem LengthRule.muls (b : Gpr) (a d : Reg) : LengthRule.Statement (.muls b a d) := fun _ =>
  ((instLength_of rfl).trans (by simp) : _ = 2)
theorem LengthRule.mulu (b a d : Gpr) : LengthRule.Statement (.mulu b a d) := fun _ =>
  ((instLength_of rfl).trans (by simp) : _ = 2)
theorem LengthRule.mulhs (b a d : Gpr) : LengthRule.Statement (.mulhs b a d) := fun _ =>
  ((instLength_of rfl).trans (by simp) : _ = 2)
theorem LengthRule.mulhu (b a d : Gpr) : LengthRule.Statement (.mulhu b a d) := fun _ =>
  ((instLength_of rfl).trans (by simp) : _ = 2)
theorem LengthRule.xmov (a d : Reg) : LengthRule.Statement (.xmov a d) := fun _ =>
  ((instLength_of rfl).trans (by simp) : _ = 2)
theorem LengthRule.inc (a d : Gpr) : LengthRule.Statement (.inc a d) := fun _ =>
  ((instLength_of rfl).trans (by simp) : _ = 2)
theorem LengthRule.dec (b d : Gpr) : LengthRule.Statement (.dec b d) := fun _ =>
  ((instLength_of rfl).trans (by simp) : _ = 2)
theorem LengthRule.neg (a d : Gpr) : LengthRule.Statement (.neg a d) := fun _ =>
  ((instLength_of rfl).trans (by simp) : _ = 2)
theorem LengthRule.not (b d : Gpr) : LengthRule.Statement (.not b d) := fun _ =>
  ((instLength_of rfl).trans (by simp) : _ = 2)
theorem LengthRule.bswap (a d : Gpr) : LengthRule.Statement (.bswap a d) := fun _ =>
  ((instLength_of rfl).trans (by simp) : _ = 2)
theorem LengthRule.wswap (b d : Gpr) : LengthRule.Statement (.wswap b d) := fun _ =>
  ((instLength_of rfl).trans (by simp) : _ = 2)
theorem LengthRule.bsi (a d : Gpr) : LengthRule.Statement (.bsi a d) := fun _ =>
  ((instLength_of rfl).trans (by simp) : _ = 2)
theorem LengthRule.wsi (b d : Gpr) : LengthRule.Statement (.wsi b d) := fun _ =>
  ((instLength_of rfl).trans (by simp) : _ = 2)
theorem LengthRule.fill : LengthRule.Statement .fill := fun _ =>
  ((instLength_of rfl).trans (by simp) : _ = 2)
theorem LengthRule.brk : LengthRule.Statement .brk := fun _ =>
  ((instLength_of rfl).trans (by simp) : _ = 2)
theorem LengthRule.syscall : LengthRule.Statement .syscall := fun _ =>
  ((instLength_of rfl).trans (by simp) : _ = 2)
theorem LengthRule.stu : LengthRule.Statement .stu := fun _ =>
  ((instLength_of rfl).trans (by simp) : _ = 2)
theorem LengthRule.fence : LengthRule.Statement .fence := fun _ =>
  ((instLength_of rfl).trans (by simp) : _ = 2)
theorem LengthRule.wfence : LengthRule.Statement .wfence := fun _ =>
  ((instLength_of rfl).trans (by simp) : _ = 2)
theorem LengthRule.woi : LengthRule.Statement .woi := fun _ =>
  ((instLength_of rfl).trans (by simp) : _ = 2)
theorem LengthRule.xori (b d : Reg) (imm : Word) : LengthRule.Statement (.xori b d imm) := fun _ =>
  ((instLength_of rfl).trans (by simp) : _ = 6)
theorem LengthRule.ori (b d : Reg) (imm : Word) : LengthRule.Statement (.ori b d imm) := fun _ =>
  ((instLength_of rfl).trans (by simp) : _ = 6)
theorem LengthRule.andi (b d : Reg) (imm : Word) : LengthRule.Statement (.andi b d imm) := fun _ =>
  ((instLength_of rfl).trans (by simp) : _ = 6)
theorem LengthRule.subi (b d : Reg) (imm : Word) : LengthRule.Statement (.subi b d imm) := fun _ =>
  ((instLength_of rfl).trans (by simp) : _ = 6)
theorem LengthRule.addi (b d : Reg) (imm : Word) : LengthRule.Statement (.addi b d imm) := fun _ =>
  ((instLength_of rfl).trans (by simp) : _ = 6)
theorem LengthRule.shli (b d : Reg) (imm : Word) : LengthRule.Statement (.shli b d imm) := fun _ =>
  ((instLength_of rfl).trans (by simp) : _ = 6)
theorem LengthRule.shri (b d : Reg) (imm : Word) : LengthRule.Statement (.shri b d imm) := fun _ =>
  ((instLength_of rfl).trans (by simp) : _ = 6)
theorem LengthRule.sari (b d : Reg) (imm : Word) : LengthRule.Statement (.sari b d imm) := fun _ =>
  ((instLength_of rfl).trans (by simp) : _ = 6)
theorem LengthRule.mulsi (b d : Reg) (imm : Word) : LengthRule.Statement (.mulsi b d imm) := fun _ =>
  ((instLength_of rfl).trans (by simp) : _ = 6)
theorem LengthRule.mului (b d : Reg) (imm : Word) : LengthRule.Statement (.mului b d imm) := fun _ =>
  ((instLength_of rfl).trans (by simp) : _ = 6)
theorem LengthRule.mulhsi (b d : Reg) (imm : Word) : LengthRule.Statement (.mulhsi b d imm) := fun _ =>
  ((instLength_of rfl).trans (by simp) : _ = 6)
theorem LengthRule.mulhui (b d : Reg) (imm : Word) : LengthRule.Statement (.mulhui b d imm) := fun _ =>
  ((instLength_of rfl).trans (by simp) : _ = 6)
theorem LengthRule.li (d : Reg) (imm : Word) : LengthRule.Statement (.li d imm) := fun _ =>
  ((instLength_of rfl).trans (by simp) : _ = 6)
theorem LengthRule.lit (d : Reg) (imm : Word) : LengthRule.Statement (.lit d imm) := fun _ =>
  ((instLength_of rfl).trans (by simp) : _ = 6)
theorem LengthRule.isub (a d : Reg) (imm : Word) : LengthRule.Statement (.isub a d imm) := fun _ =>
  ((instLength_of rfl).trans (by simp) : _ = 6)
theorem LengthRule.ishl (a d : Reg) (imm : Word) : LengthRule.Statement (.ishl a d imm) := fun _ =>
  ((instLength_of rfl).trans (by simp) : _ = 6)
theorem LengthRule.ishr (a d : Reg) (imm : Word) : LengthRule.Statement (.ishr a d imm) := fun _ =>
  ((instLength_of rfl).trans (by simp) : _ = 6)
theorem LengthRule.isar (a d : Reg) (imm : Word) : LengthRule.Statement (.isar a d imm) := fun _ =>
  ((instLength_of rfl).trans (by simp) : _ = 6)
theorem LengthRule.fadd (b a d : Gpr) : LengthRule.Statement (.fadd b a d) := fun _ =>
  ((instLength_of rfl).trans (by simp) : _ = 2)
theorem LengthRule.fsub (b a d : Gpr) : LengthRule.Statement (.fsub b a d) := fun _ =>
  ((instLength_of rfl).trans (by simp) : _ = 2)
theorem LengthRule.fmul (b a d : Gpr) : LengthRule.Statement (.fmul b a d) := fun _ =>
  ((instLength_of rfl).trans (by simp) : _ = 2)
theorem LengthRule.ftoi (a d : Gpr) : LengthRule.Statement (.ftoi a d) := fun _ =>
  ((instLength_of rfl).trans (by simp) : _ = 2)
theorem LengthRule.itof (b d : Gpr) : LengthRule.Statement (.itof b d) := fun _ =>
  ((instLength_of rfl).trans (by simp) : _ = 2)
theorem LengthRule.frecip (a d : Gpr) : LengthRule.Statement (.frecip a d) := fun _ =>
  ((instLength_of rfl).trans (by simp) : _ = 2)
theorem LengthRule.frsqrt (b d : Gpr) : LengthRule.Statement (.frsqrt b d) := fun _ =>
  ((instLength_of rfl).trans (by simp) : _ = 2)
theorem LengthRule.faddi (b d : Gpr) (imm : Word) : LengthRule.Statement (.faddi b d imm) := fun _ =>
  ((instLength_of rfl).trans (by simp) : _ = 6)
theorem LengthRule.fsubi (b d : Gpr) (imm : Word) : LengthRule.Statement (.fsubi b d imm) := fun _ =>
  ((instLength_of rfl).trans (by simp) : _ = 6)
theorem LengthRule.fmuli (b d : Gpr) (imm : Word) : LengthRule.Statement (.fmuli b d imm) := fun _ =>
  ((instLength_of rfl).trans (by simp) : _ = 6)
theorem LengthRule.ifsub (a d : Gpr) (imm : Word) : LengthRule.Statement (.ifsub a d imm) := fun _ =>
  ((instLength_of rfl).trans (by simp) : _ = 6)
theorem LengthRule.beqz (b : Reg) (off : PcBits) (rel : Bool) : LengthRule.Statement (.beqz b off rel) := fun _ =>
  ((instLength_of rfl).trans (by simp) : _ = 6)
theorem LengthRule.bnez (b : Reg) (off : PcBits) (rel : Bool) : LengthRule.Statement (.bnez b off rel) := fun _ =>
  ((instLength_of rfl).trans (by simp) : _ = 6)
theorem LengthRule.bltz (b : Reg) (off : PcBits) (rel : Bool) : LengthRule.Statement (.bltz b off rel) := fun _ =>
  ((instLength_of rfl).trans (by simp) : _ = 6)
theorem LengthRule.bgez (b : Reg) (off : PcBits) (rel : Bool) : LengthRule.Statement (.bgez b off rel) := fun _ =>
  ((instLength_of rfl).trans (by simp) : _ = 6)
theorem LengthRule.bgtz (b : Reg) (off : PcBits) (rel : Bool) : LengthRule.Statement (.bgtz b off rel) := fun _ =>
  ((instLength_of rfl).trans (by simp) : _ = 6)
theorem LengthRule.blez (b : Reg) (off : PcBits) (rel : Bool) : LengthRule.Statement (.blez b off rel) := fun _ =>
  ((instLength_of rfl).trans (by simp) : _ = 6)
theorem LengthRule.beq (b a : Reg) (off : PcBits) (rel : Bool) : LengthRule.Statement (.beq b a off rel) := fun _ =>
  ((instLength_of rfl).trans (by simp) : _ = 6)
theorem LengthRule.bne (b a : Reg) (off : PcBits) (rel : Bool) : LengthRule.Statement (.bne b a off rel) := fun _ =>
  ((instLength_of rfl).trans (by simp) : _ = 6)
theorem LengthRule.blts (b a : Reg) (off : PcBits) (rel : Bool) : LengthRule.Statement (.blts b a off rel) := fun _ =>
  ((instLength_of rfl).trans (by simp) : _ = 6)
theorem LengthRule.bges (b a : Reg) (off : PcBits) (rel : Bool) : LengthRule.Statement (.bges b a off rel) := fun _ =>
  ((instLength_of rfl).trans (by simp) : _ = 6)
theorem LengthRule.bltu (b a : Reg) (off : PcBits) (rel : Bool) : LengthRule.Statement (.bltu b a off rel) := fun _ =>
  ((instLength_of rfl).trans (by simp) : _ = 6)
theorem LengthRule.bgeu (b a : Reg) (off : PcBits) (rel : Bool) : LengthRule.Statement (.bgeu b a off rel) := fun _ =>
  ((instLength_of rfl).trans (by simp) : _ = 6)
theorem LengthRule.bflt (b a : Reg) (off : PcBits) (rel : Bool) : LengthRule.Statement (.bflt b a off rel) := fun _ =>
  ((instLength_of rfl).trans (by simp) : _ = 6)
theorem LengthRule.bfge (b a : Reg) (off : PcBits) (rel : Bool) : LengthRule.Statement (.bfge b a off rel) := fun _ =>
  ((instLength_of rfl).trans (by simp) : _ = 6)
theorem LengthRule.bbs (n : Nib) (a : Reg) (off : PcBits) (rel : Bool) : LengthRule.Statement (.bbs n a off rel) := fun _ =>
  ((instLength_of rfl).trans (by simp) : _ = 6)
theorem LengthRule.bbc (n : Nib) (b : Reg) (off : PcBits) (rel : Bool) : LengthRule.Statement (.bbc n b off rel) := fun _ =>
  ((instLength_of rfl).trans (by simp) : _ = 6)
theorem LengthRule.ldsbA (a d : Reg) : LengthRule.Statement (.ldsbA a d) := fun _ =>
  ((instLength_of rfl).trans (by simp; decide) : _ = 2)
theorem LengthRule.ldubA (a d : Reg) : LengthRule.Statement (.ldubA a d) := fun _ =>
  ((instLength_of rfl).trans (by simp; decide) : _ = 2)
theorem LengthRule.ldshA (a d : Reg) : LengthRule.Statement (.ldshA a d) := fun _ =>
  ((instLength_of rfl).trans (by simp; decide) : _ = 2)
theorem LengthRule.lduhA (a d : Reg) : LengthRule.Statement (.lduhA a d) := fun _ =>
  ((instLength_of rfl).trans (by simp; decide) : _ = 2)
theorem LengthRule.ldwA (a d : Reg) : LengthRule.Statement (.ldwA a d) := fun _ =>
  ((instLength_of rfl).trans (by simp; decide) : _ = 2)
theorem LengthRule.stbA (a d : Reg) : LengthRule.Statement (.stbA a d) := fun _ =>
  ((instLength_of rfl).trans (by simp; decide) : _ = 2)
theorem LengthRule.sthA (a d : Reg) : LengthRule.Statement (.sthA a d) := fun _ =>
  ((instLength_of rfl).trans (by simp; decide) : _ = 2)
theorem LengthRule.stwA (a d : Reg) : LengthRule.Statement (.stwA a d) := fun _ =>
  ((instLength_of rfl).trans (by simp; decide) : _ = 2)
theorem LengthRule.ldsbC (d : Reg) (imm : Word) : LengthRule.Statement (.ldsbC d imm) := fun _ =>
  ((instLength_of rfl).trans (by simp) : _ = 6)
theorem LengthRule.ldsbCTpc (imm : Word) : LengthRule.Statement (.ldsbCTpc imm) := fun _ =>
  ((instLength_of rfl).trans (by simp) : _ = 6)
theorem LengthRule.ldubC (d : Reg) (imm : Word) : LengthRule.Statement (.ldubC d imm) := fun _ =>
  ((instLength_of rfl).trans (by simp) : _ = 6)
theorem LengthRule.ldubCTpc (imm : Word) : LengthRule.Statement (.ldubCTpc imm) := fun _ =>
  ((instLength_of rfl).trans (by simp) : _ = 6)
theorem LengthRule.ldshC (d : Reg) (imm : Word) : LengthRule.Statement (.ldshC d imm) := fun _ =>
  ((instLength_of rfl).trans (by simp) : _ = 6)
theorem LengthRule.ldshCTpc (imm : Word) : LengthRule.Statement (.ldshCTpc imm) := fun _ =>
  ((instLength_of rfl).trans (by simp) : _ = 6)
theorem LengthRule.lduhC (d : Reg) (imm : Word) : LengthRule.Statement (.lduhC d imm) := fun _ =>
  ((instLength_of rfl).trans (by simp) : _ = 6)
theorem LengthRule.lduhCTpc (imm : Word) : LengthRule.Statement (.lduhCTpc imm) := fun _ =>
  ((instLength_of rfl).trans (by simp) : _ = 6)
theorem LengthRule.ldwC (d : Reg) (imm : Word) : LengthRule.Statement (.ldwC d imm) := fun _ =>
  ((instLength_of rfl).trans (by simp) : _ = 6)
theorem LengthRule.ldwCTpc (imm : Word) : LengthRule.Statement (.ldwCTpc imm) := fun _ =>
  ((instLength_of rfl).trans (by simp) : _ = 6)
theorem LengthRule.stbC (d : Reg) (imm : Word) : LengthRule.Statement (.stbC d imm) := fun _ =>
  ((instLength_of rfl).trans (by simp) : _ = 6)
theorem LengthRule.stbCTpc (imm : Word) : LengthRule.Statement (.stbCTpc imm) := fun _ =>
  ((instLength_of rfl).trans (by simp) : _ = 6)
theorem LengthRule.sthC (d : Reg) (imm : Word) : LengthRule.Statement (.sthC d imm) := fun _ =>
  ((instLength_of rfl).trans (by simp) : _ = 6)
theorem LengthRule.sthCTpc (imm : Word) : LengthRule.Statement (.sthCTpc imm) := fun _ =>
  ((instLength_of rfl).trans (by simp) : _ = 6)
theorem LengthRule.stwC (d : Reg) (imm : Word) : LengthRule.Statement (.stwC d imm) := fun _ =>
  ((instLength_of rfl).trans (by simp) : _ = 6)
theorem LengthRule.stwCTpc (imm : Word) : LengthRule.Statement (.stwCTpc imm) := fun _ =>
  ((instLength_of rfl).trans (by simp) : _ = 6)
theorem LengthRule.ldsbD (a d : Reg) (imm : Word) : LengthRule.Statement (.ldsbD a d imm) := fun _ =>
  ((instLength_of rfl).trans (by simp; decide) : _ = 6)
theorem LengthRule.ldsbDTpc (a : Reg) (imm : Word) : LengthRule.Statement (.ldsbDTpc a imm) := fun _ =>
  ((instLength_of rfl).trans (by simp) : _ = 6)
theorem LengthRule.ldubD (a d : Reg) (imm : Word) : LengthRule.Statement (.ldubD a d imm) := fun _ =>
  ((instLength_of rfl).trans (by simp; decide) : _ = 6)
theorem LengthRule.ldubDTpc (a : Reg) (imm : Word) : LengthRule.Statement (.ldubDTpc a imm) := fun _ =>
  ((instLength_of rfl).trans (by simp) : _ = 6)
theorem LengthRule.ldshD (a d : Reg) (imm : Word) : LengthRule.Statement (.ldshD a d imm) := fun _ =>
  ((instLength_of rfl).trans (by simp; decide) : _ = 6)
theorem LengthRule.ldshDTpc (a : Reg) (imm : Word) : LengthRule.Statement (.ldshDTpc a imm) := fun _ =>
  ((instLength_of rfl).trans (by simp) : _ = 6)
theorem LengthRule.lduhD (a d : Reg) (imm : Word) : LengthRule.Statement (.lduhD a d imm) := fun _ =>
  ((instLength_of rfl).trans (by simp; decide) : _ = 6)
theorem LengthRule.lduhDTpc (a : Reg) (imm : Word) : LengthRule.Statement (.lduhDTpc a imm) := fun _ =>
  ((instLength_of rfl).trans (by simp) : _ = 6)
theorem LengthRule.ldwD (a d : Reg) (imm : Word) : LengthRule.Statement (.ldwD a d imm) := fun _ =>
  ((instLength_of rfl).trans (by simp; decide) : _ = 6)
theorem LengthRule.ldwDTpc (a : Reg) (imm : Word) : LengthRule.Statement (.ldwDTpc a imm) := fun _ =>
  ((instLength_of rfl).trans (by simp) : _ = 6)
theorem LengthRule.stbD (a d : Reg) (imm : Word) : LengthRule.Statement (.stbD a d imm) := fun _ =>
  ((instLength_of rfl).trans (by simp; decide) : _ = 6)
theorem LengthRule.stbDTpc (a : Reg) (imm : Word) : LengthRule.Statement (.stbDTpc a imm) := fun _ =>
  ((instLength_of rfl).trans (by simp) : _ = 6)
theorem LengthRule.sthD (a d : Reg) (imm : Word) : LengthRule.Statement (.sthD a d imm) := fun _ =>
  ((instLength_of rfl).trans (by simp; decide) : _ = 6)
theorem LengthRule.sthDTpc (a : Reg) (imm : Word) : LengthRule.Statement (.sthDTpc a imm) := fun _ =>
  ((instLength_of rfl).trans (by simp) : _ = 6)
theorem LengthRule.stwD (a d : Reg) (imm : Word) : LengthRule.Statement (.stwD a d imm) := fun _ =>
  ((instLength_of rfl).trans (by simp) : _ = 6)
theorem LengthRule.stwDTpc (a : Reg) (imm : Word) : LengthRule.Statement (.stwDTpc a imm) := fun _ =>
  ((instLength_of rfl).trans (by simp) : _ = 6)
theorem LengthRule.siiXorHole (n : Nib) : LengthRule.Statement (.siiXorHole n) := by
  intro h; cases n <;> first | rfl | exact absurd h (by decide)
theorem LengthRule.siiAD0_9 (b a : Reg) : LengthRule.Statement (.siiAD0_9 b a) := fun _ =>
  ((instLength_of rfl).trans (by simp) : _ = 2)
theorem LengthRule.siiAD0_a (b a : Reg) : LengthRule.Statement (.siiAD0_a b a) := fun _ =>
  ((instLength_of rfl).trans (by simp) : _ = 2)
theorem LengthRule.siiAD0_b (b a : Reg) : LengthRule.Statement (.siiAD0_b b a) := fun _ =>
  ((instLength_of rfl).trans (by simp) : _ = 2)
theorem LengthRule.siiAD0_c (b a : Reg) : LengthRule.Statement (.siiAD0_c b a) := fun _ =>
  ((instLength_of rfl).trans (by simp) : _ = 2)
theorem LengthRule.siiAD0_d (b a : Reg) : LengthRule.Statement (.siiAD0_d b a) := fun _ =>
  ((instLength_of rfl).trans (by simp) : _ = 2)
theorem LengthRule.siiAD0_e (b a : Reg) : LengthRule.Statement (.siiAD0_e b a) := fun _ =>
  ((instLength_of rfl).trans (by simp) : _ = 2)
theorem LengthRule.siiAB0A0_9 (d : Gpr) : LengthRule.Statement (.siiAB0A0_9 d) := fun _ =>
  ((instLength_of rfl).trans (by simp) : _ = 2)
theorem LengthRule.siiAB0A0_a (d : Gpr) : LengthRule.Statement (.siiAB0A0_a d) := fun _ =>
  ((instLength_of rfl).trans (by simp) : _ = 2)
theorem LengthRule.siiAB0A0_b (d : Gpr) : LengthRule.Statement (.siiAB0A0_b d) := fun _ =>
  ((instLength_of rfl).trans (by simp) : _ = 2)
theorem LengthRule.siiAB0A0_c (d : Gpr) : LengthRule.Statement (.siiAB0A0_c d) := fun _ =>
  ((instLength_of rfl).trans (by simp) : _ = 2)
theorem LengthRule.siiAB0A0_d (d : Gpr) : LengthRule.Statement (.siiAB0A0_d d) := fun _ =>
  ((instLength_of rfl).trans (by simp) : _ = 2)
theorem LengthRule.siiAB0A0_e (d : Gpr) : LengthRule.Statement (.siiAB0A0_e d) := fun _ =>
  ((instLength_of rfl).trans (by simp) : _ = 2)
theorem LengthRule.siiBD0_c (b : Reg) : LengthRule.Statement (.siiBD0_c b) := fun _ =>
  ((instLength_of rfl).trans (by simp) : _ = 6)
theorem LengthRule.siiBD0_d (b : Reg) : LengthRule.Statement (.siiBD0_d b) := fun _ =>
  ((instLength_of rfl).trans (by simp) : _ = 6)
theorem LengthRule.siiBD0_e (b : Reg) : LengthRule.Statement (.siiBD0_e b) := fun _ =>
  ((instLength_of rfl).trans (by simp) : _ = 6)
theorem LengthRule.siiBB0_c (d : Gpr) : LengthRule.Statement (.siiBB0_c d) := fun _ =>
  ((instLength_of rfl).trans (by simp) : _ = 6)
theorem LengthRule.siiBB0_d (d : Gpr) : LengthRule.Statement (.siiBB0_d d) := fun _ =>
  ((instLength_of rfl).trans (by simp) : _ = 6)
theorem LengthRule.siiBB0_e (d : Gpr) : LengthRule.Statement (.siiBB0_e d) := fun _ =>
  ((instLength_of rfl).trans (by simp) : _ = 6)
theorem LengthRule.siiC_0 (a d : Reg) : LengthRule.Statement (.siiC_0 a d) := fun _ =>
  ((instLength_of rfl).trans (by simp) : _ = 6)
theorem LengthRule.siiC_1 (a d : Reg) : LengthRule.Statement (.siiC_1 a d) := fun _ =>
  ((instLength_of rfl).trans (by simp) : _ = 6)
theorem LengthRule.siiC_2 (a d : Reg) : LengthRule.Statement (.siiC_2 a d) := fun _ =>
  ((instLength_of rfl).trans (by simp) : _ = 6)
theorem LengthRule.siiC_4 (a d : Reg) : LengthRule.Statement (.siiC_4 a d) := fun _ =>
  ((instLength_of rfl).trans (by simp) : _ = 6)
theorem LengthRule.siiC_8 (a d : Reg) : LengthRule.Statement (.siiC_8 a d) := fun _ =>
  ((instLength_of rfl).trans (by simp) : _ = 6)
theorem LengthRule.siiC_9 (a d : Reg) : LengthRule.Statement (.siiC_9 a d) := fun _ =>
  ((instLength_of rfl).trans (by simp) : _ = 6)
theorem LengthRule.siiC_a (a d : Reg) : LengthRule.Statement (.siiC_a a d) := fun _ =>
  ((instLength_of rfl).trans (by simp) : _ = 6)
theorem LengthRule.siiC_b (a d : Reg) : LengthRule.Statement (.siiC_b a d) := fun _ =>
  ((instLength_of rfl).trans (by simp) : _ = 6)
theorem LengthRule.siiC_c (a d : Reg) : LengthRule.Statement (.siiC_c a d) := fun _ =>
  ((instLength_of rfl).trans (by simp) : _ = 6)
theorem LengthRule.siiC_e (a d : Reg) : LengthRule.Statement (.siiC_e a d) := fun _ =>
  ((instLength_of rfl).trans (by simp) : _ = 6)
theorem LengthRule.siiCD0_d (a : Reg) : LengthRule.Statement (.siiCD0_d a) := fun _ =>
  ((instLength_of rfl).trans (by simp) : _ = 6)
theorem LengthRule.siiCA0_d (d : Gpr) : LengthRule.Statement (.siiCA0_d d) := fun _ =>
  ((instLength_of rfl).trans (by simp) : _ = 6)
theorem LengthRule.siiBr0 (b : Reg) (a : Nib) : LengthRule.Statement (.siiBr0 b a) := fun _ =>
  ((instLength_of rfl).trans (by simp) : _ = 6)
theorem LengthRule.siiBr_7 (b a : Reg) : LengthRule.Statement (.siiBr_7 b a) := fun _ =>
  ((instLength_of rfl).trans (by simp) : _ = 6)
theorem LengthRule.siiBr_8 (b a : Reg) : LengthRule.Statement (.siiBr_8 b a) := fun _ =>
  ((instLength_of rfl).trans (by simp) : _ = 6)
theorem LengthRule.siiBr_9 (b a : Reg) : LengthRule.Statement (.siiBr_9 b a) := fun _ =>
  ((instLength_of rfl).trans (by simp) : _ = 6)
theorem LengthRule.siiBr_a (b a : Reg) : LengthRule.Statement (.siiBr_a b a) := fun _ =>
  ((instLength_of rfl).trans (by simp) : _ = 6)
theorem LengthRule.siiBr_b (b a : Reg) : LengthRule.Statement (.siiBr_b b a) := fun _ =>
  ((instLength_of rfl).trans (by simp) : _ = 6)
theorem LengthRule.siiBr_c (b a : Reg) : LengthRule.Statement (.siiBr_c b a) := fun _ =>
  ((instLength_of rfl).trans (by simp) : _ = 6)
theorem LengthRule.siiCD (c : Nib) (d : Reg) : LengthRule.Statement (.siiCD c d) := fun _ =>
  ((instLength_of rfl).trans (by simp) : _ = 6)
theorem LengthRule.siiCOnly (c : Nib) : LengthRule.Statement (.siiCOnly c) := fun _ =>
  ((instLength_of rfl).trans (by simp) : _ = 6)
theorem LengthRule.siiLsADf (b a : Nib) : LengthRule.Statement (.siiLsADf b a) := fun _ =>
  ((instLength_of rfl).trans (by simp) : _ = 6)
theorem LengthRule.siiLsAAf (b : Nib) (d : Reg) : LengthRule.Statement (.siiLsAAf b d) := fun _ =>
  ((instLength_of rfl).trans (by simp) : _ = 6)

end Sys2Proof.Laws
end

