-- ==== Sys2Proof/Tests/Slice0.lean ====
section
/-!
SUPPORT. Tests: what WellFormed refuses; a word of every row, written from the `encoding` column of
spec/opcode_table.json, with the instruction it decodes to; one step of every instruction, from
the vectors of spec/95_test_vectors.md and the examples of the rules; and for every statement with
hypotheses a state and operands that meet them.
-/

namespace Sys2Proof.Tests

open Sys2Proof Sys2Proof.Machine

/-! ## WellFormed: one ill-formed term for each check -/

theorem test_wf_xor : (Instr.xor .pc .pc .pc).wf = false := by decide
theorem test_wf_or : (Instr.or .pc .pc .pc).wf = false := by decide
theorem test_wf_bbs : (Instr.bbs .xf (.gp .r1) 0 false).wf = false := by decide
theorem test_wf_bbc : (Instr.bbc .xf (.gp .r1) 0 false).wf = false := by decide
theorem test_wf_xor_hole :
    (Instr.siiXorHole .x3).wf = false ∧ (Instr.siiXorHole .xd).wf = false := by
  decide
theorem test_wf_br0 : (Instr.siiBr0 .pc .x5).wf = false ∧ (Instr.siiBr0 .pc .xf).wf = false := by
  decide
theorem test_wf_cd : (Instr.siiCD .x1 .pc).wf = false ∧ (Instr.siiCD .xf .pc).wf = false := by
  decide
theorem test_wf_c_only : (Instr.siiCOnly .xf).wf = false := by decide
theorem test_wf_ls_a_df : (Instr.siiLsADf .x8 .x2).wf = false := by decide
theorem test_wf_ls_a_af : (Instr.siiLsAAf .x8 .pc).wf = false := by decide

/-! ## Decoding: INST from the encoding column with B = 1, A = 2, D = 3 (and C = 5 or n = 5 where
they are fields), FIELD_I = 0x12345679; the halfword behind the instruction is left over -/

/-- Whether the decoder reads exactly these halfwords as this instruction. -/
def readsAs (hs : List Half) (i : Instr) : Bool :=
  match decode (hs ++ [0xabcd]) with
  | .ok (j, [h]) => j == i && h == 0xabcd
  | _ => false


theorem test_decode_alu_a :
    readsAs [0x0123] (.xor (.gp .r1) (.gp .r2) (.gp .r3)) = true
      ∧ readsAs [0x1123] (.or (.gp .r1) (.gp .r2) (.gp .r3)) = true
      ∧ readsAs [0x2123] (.and (.gp .r1) (.gp .r2) (.gp .r3)) = true
      ∧ readsAs [0x3123] (.sub (.gp .r1) (.gp .r2) (.gp .r3)) = true
      ∧ readsAs [0x4123] (.add (.gp .r1) (.gp .r2) (.gp .r3)) = true
      ∧ readsAs [0x5123] (.shl (.gp .r1) (.gp .r2) (.gp .r3)) = true
      ∧ readsAs [0x6123] (.shr (.gp .r1) (.gp .r2) (.gp .r3)) = true
      ∧ readsAs [0x7123] (.sar (.gp .r1) (.gp .r2) (.gp .r3)) = true
      ∧ readsAs [0x8123] (.muls .r1 (.gp .r2) (.gp .r3)) = true
      ∧ readsAs [0x9123] (.mulu .r1 .r2 .r3) = true
      ∧ readsAs [0xa123] (.mulhs .r1 .r2 .r3) = true
      ∧ readsAs [0xb123] (.mulhu .r1 .r2 .r3) = true
      ∧ readsAs [0x8023] (.xmov (.gp .r2) (.gp .r3)) = true
      ∧ readsAs [0x9023] (.inc .r2 .r3) = true
      ∧ readsAs [0x9103] (.dec .r1 .r3) = true
      ∧ readsAs [0xa023] (.neg .r2 .r3) = true
      ∧ readsAs [0xa103] (.not .r1 .r3) = true
      ∧ readsAs [0xb023] (.bswap .r2 .r3) = true
      ∧ readsAs [0xb103] (.wswap .r1 .r3) = true
      ∧ readsAs [0xc023] (.bsi .r2 .r3) = true
      ∧ readsAs [0xc103] (.wsi .r1 .r3) = true := by
  decide

theorem test_decode_system :
    readsAs [0x0000] (.fill) = true
      ∧ readsAs [0x0110] (.brk) = true
      ∧ readsAs [0x0220] (.syscall) = true
      ∧ readsAs [0x0330] (.stu) = true
      ∧ readsAs [0x0dd0] (.fence) = true
      ∧ readsAs [0x0ee0] (.wfence) = true
      ∧ readsAs [0x1000] (.woi) = true := by
  decide

theorem test_decode_alu_b :
    readsAs [0x01f3, 0x5679, 0x1234] (.xori (.gp .r1) (.gp .r3) 0x12345679) = true
      ∧ readsAs [0x11f3, 0x5679, 0x1234] (.ori (.gp .r1) (.gp .r3) 0x12345679) = true
      ∧ readsAs [0x21f3, 0x5679, 0x1234] (.andi (.gp .r1) (.gp .r3) 0x12345679) = true
      ∧ readsAs [0x31f3, 0x5679, 0x1234] (.subi (.gp .r1) (.gp .r3) 0x12345679) = true
      ∧ readsAs [0x41f3, 0x5679, 0x1234] (.addi (.gp .r1) (.gp .r3) 0x12345679) = true
      ∧ readsAs [0x51f3, 0x5679, 0x1234] (.shli (.gp .r1) (.gp .r3) 0x12345679) = true
      ∧ readsAs [0x61f3, 0x5679, 0x1234] (.shri (.gp .r1) (.gp .r3) 0x12345679) = true
      ∧ readsAs [0x71f3, 0x5679, 0x1234] (.sari (.gp .r1) (.gp .r3) 0x12345679) = true
      ∧ readsAs [0x81f3, 0x5679, 0x1234] (.mulsi (.gp .r1) (.gp .r3) 0x12345679) = true
      ∧ readsAs [0x91f3, 0x5679, 0x1234] (.mului (.gp .r1) (.gp .r3) 0x12345679) = true
      ∧ readsAs [0xa1f3, 0x5679, 0x1234] (.mulhsi (.gp .r1) (.gp .r3) 0x12345679) = true
      ∧ readsAs [0xb1f3, 0x5679, 0x1234] (.mulhui (.gp .r1) (.gp .r3) 0x12345679) = true
      ∧ readsAs [0x0ff3, 0x5679, 0x1234] (.li (.gp .r3) 0x12345679) = true
      ∧ readsAs [0x1ff3, 0x5679, 0x1234] (.lit (.gp .r3) 0x12345679) = true := by
  decide

theorem test_decode_alu_c :
    readsAs [0x3f23, 0x5679, 0x1234] (.isub (.gp .r2) (.gp .r3) 0x12345679) = true
      ∧ readsAs [0x5f23, 0x5679, 0x1234] (.ishl (.gp .r2) (.gp .r3) 0x12345679) = true
      ∧ readsAs [0x6f23, 0x5679, 0x1234] (.ishr (.gp .r2) (.gp .r3) 0x12345679) = true
      ∧ readsAs [0x7f23, 0x5679, 0x1234] (.isar (.gp .r2) (.gp .r3) 0x12345679) = true := by
  decide

theorem test_decode_float :
    readsAs [0xc123] (.fadd .r1 .r2 .r3) = true
      ∧ readsAs [0xd123] (.fsub .r1 .r2 .r3) = true
      ∧ readsAs [0xe123] (.fmul .r1 .r2 .r3) = true
      ∧ readsAs [0xd023] (.ftoi .r2 .r3) = true
      ∧ readsAs [0xd103] (.itof .r1 .r3) = true
      ∧ readsAs [0xe023] (.frecip .r2 .r3) = true
      ∧ readsAs [0xe103] (.frsqrt .r1 .r3) = true
      ∧ readsAs [0xc1f3, 0x5679, 0x1234] (.faddi .r1 .r3 0x12345679) = true
      ∧ readsAs [0xd1f3, 0x5679, 0x1234] (.fsubi .r1 .r3 0x12345679) = true
      ∧ readsAs [0xe1f3, 0x5679, 0x1234] (.fmuli .r1 .r3 0x12345679) = true
      ∧ readsAs [0xdf23, 0x5679, 0x1234] (.ifsub .r2 .r3 0x12345679) = true := by
  decide

theorem test_decode_branches :
    readsAs [0x010f, 0x5679, 0x1234] (.beqz (.gp .r1) 0x091a2b3c true) = true
      ∧ readsAs [0x011f, 0x5679, 0x1234] (.bnez (.gp .r1) 0x091a2b3c true) = true
      ∧ readsAs [0x012f, 0x5679, 0x1234] (.bltz (.gp .r1) 0x091a2b3c true) = true
      ∧ readsAs [0x013f, 0x5679, 0x1234] (.bgez (.gp .r1) 0x091a2b3c true) = true
      ∧ readsAs [0x014f, 0x5679, 0x1234] (.bgtz (.gp .r1) 0x091a2b3c true) = true
      ∧ readsAs [0x015f, 0x5679, 0x1234] (.blez (.gp .r1) 0x091a2b3c true) = true
      ∧ readsAs [0x112f, 0x5679, 0x1234] (.beq (.gp .r1) (.gp .r2) 0x091a2b3c true) = true
      ∧ readsAs [0x212f, 0x5679, 0x1234] (.bne (.gp .r1) (.gp .r2) 0x091a2b3c true) = true
      ∧ readsAs [0x312f, 0x5679, 0x1234] (.blts (.gp .r1) (.gp .r2) 0x091a2b3c true) = true
      ∧ readsAs [0x412f, 0x5679, 0x1234] (.bges (.gp .r1) (.gp .r2) 0x091a2b3c true) = true
      ∧ readsAs [0x512f, 0x5679, 0x1234] (.bltu (.gp .r1) (.gp .r2) 0x091a2b3c true) = true
      ∧ readsAs [0x612f, 0x5679, 0x1234] (.bgeu (.gp .r1) (.gp .r2) 0x091a2b3c true) = true
      ∧ readsAs [0xd12f, 0x5679, 0x1234] (.bflt (.gp .r1) (.gp .r2) 0x091a2b3c true) = true
      ∧ readsAs [0xe12f, 0x5679, 0x1234] (.bfge (.gp .r1) (.gp .r2) 0x091a2b3c true) = true
      ∧ readsAs [0x5f2f, 0x5679, 0x1234] (.bbs .x5 (.gp .r2) 0x091a2b3c true) = true
      ∧ readsAs [0x51ff, 0x5679, 0x1234] (.bbc .x5 (.gp .r1) 0x091a2b3c true) = true := by
  decide

theorem test_decode_load_store_a :
    readsAs [0xf023] (.ldsbA (.gp .r2) (.gp .r3)) = true
      ∧ readsAs [0xf123] (.ldubA (.gp .r2) (.gp .r3)) = true
      ∧ readsAs [0xf223] (.ldshA (.gp .r2) (.gp .r3)) = true
      ∧ readsAs [0xf323] (.lduhA (.gp .r2) (.gp .r3)) = true
      ∧ readsAs [0xf423] (.ldwA (.gp .r2) (.gp .r3)) = true
      ∧ readsAs [0xf523] (.stbA (.gp .r2) (.gp .r3)) = true
      ∧ readsAs [0xf623] (.sthA (.gp .r2) (.gp .r3)) = true
      ∧ readsAs [0xf723] (.stwA (.gp .r2) (.gp .r3)) = true := by
  decide

theorem test_decode_load_store_c :
    readsAs [0xf8f3, 0x5679, 0x1234] (.ldsbC (.gp .r3) 0x12345679) = true
      ∧ readsAs [0xf8ff, 0x5679, 0x1234] (.ldsbCTpc 0x12345679) = true
      ∧ readsAs [0xf9f3, 0x5679, 0x1234] (.ldubC (.gp .r3) 0x12345679) = true
      ∧ readsAs [0xf9ff, 0x5679, 0x1234] (.ldubCTpc 0x12345679) = true
      ∧ readsAs [0xfaf3, 0x5679, 0x1234] (.ldshC (.gp .r3) 0x12345679) = true
      ∧ readsAs [0xfaff, 0x5679, 0x1234] (.ldshCTpc 0x12345679) = true
      ∧ readsAs [0xfbf3, 0x5679, 0x1234] (.lduhC (.gp .r3) 0x12345679) = true
      ∧ readsAs [0xfbff, 0x5679, 0x1234] (.lduhCTpc 0x12345679) = true
      ∧ readsAs [0xfcf3, 0x5679, 0x1234] (.ldwC (.gp .r3) 0x12345679) = true
      ∧ readsAs [0xfcff, 0x5679, 0x1234] (.ldwCTpc 0x12345679) = true
      ∧ readsAs [0xfdf3, 0x5679, 0x1234] (.stbC (.gp .r3) 0x12345679) = true
      ∧ readsAs [0xfdff, 0x5679, 0x1234] (.stbCTpc 0x12345679) = true
      ∧ readsAs [0xfef3, 0x5679, 0x1234] (.sthC (.gp .r3) 0x12345679) = true
      ∧ readsAs [0xfeff, 0x5679, 0x1234] (.sthCTpc 0x12345679) = true
      ∧ readsAs [0xfff3, 0x5679, 0x1234] (.stwC (.gp .r3) 0x12345679) = true
      ∧ readsAs [0xffff, 0x5679, 0x1234] (.stwCTpc 0x12345679) = true := by
  decide

theorem test_decode_load_store_d :
    readsAs [0xf823, 0x5679, 0x1234] (.ldsbD (.gp .r2) (.gp .r3) 0x12345679) = true
      ∧ readsAs [0xf82f, 0x5679, 0x1234] (.ldsbDTpc (.gp .r2) 0x12345679) = true
      ∧ readsAs [0xf923, 0x5679, 0x1234] (.ldubD (.gp .r2) (.gp .r3) 0x12345679) = true
      ∧ readsAs [0xf92f, 0x5679, 0x1234] (.ldubDTpc (.gp .r2) 0x12345679) = true
      ∧ readsAs [0xfa23, 0x5679, 0x1234] (.ldshD (.gp .r2) (.gp .r3) 0x12345679) = true
      ∧ readsAs [0xfa2f, 0x5679, 0x1234] (.ldshDTpc (.gp .r2) 0x12345679) = true
      ∧ readsAs [0xfb23, 0x5679, 0x1234] (.lduhD (.gp .r2) (.gp .r3) 0x12345679) = true
      ∧ readsAs [0xfb2f, 0x5679, 0x1234] (.lduhDTpc (.gp .r2) 0x12345679) = true
      ∧ readsAs [0xfc23, 0x5679, 0x1234] (.ldwD (.gp .r2) (.gp .r3) 0x12345679) = true
      ∧ readsAs [0xfc2f, 0x5679, 0x1234] (.ldwDTpc (.gp .r2) 0x12345679) = true
      ∧ readsAs [0xfd23, 0x5679, 0x1234] (.stbD (.gp .r2) (.gp .r3) 0x12345679) = true
      ∧ readsAs [0xfd2f, 0x5679, 0x1234] (.stbDTpc (.gp .r2) 0x12345679) = true
      ∧ readsAs [0xfe23, 0x5679, 0x1234] (.sthD (.gp .r2) (.gp .r3) 0x12345679) = true
      ∧ readsAs [0xfe2f, 0x5679, 0x1234] (.sthDTpc (.gp .r2) 0x12345679) = true
      ∧ readsAs [0xff23, 0x5679, 0x1234] (.stwD (.gp .r2) (.gp .r3) 0x12345679) = true
      ∧ readsAs [0xff2f, 0x5679, 0x1234] (.stwDTpc (.gp .r2) 0x12345679) = true := by
  decide

theorem test_decode_reserved_short :
    readsAs [0x0550] (.siiXorHole .x5) = true
      ∧ readsAs [0x9120] (.siiAD0_9 (.gp .r1) (.gp .r2)) = true
      ∧ readsAs [0xa120] (.siiAD0_a (.gp .r1) (.gp .r2)) = true
      ∧ readsAs [0xb120] (.siiAD0_b (.gp .r1) (.gp .r2)) = true
      ∧ readsAs [0xc120] (.siiAD0_c (.gp .r1) (.gp .r2)) = true
      ∧ readsAs [0xd120] (.siiAD0_d (.gp .r1) (.gp .r2)) = true
      ∧ readsAs [0xe120] (.siiAD0_e (.gp .r1) (.gp .r2)) = true
      ∧ readsAs [0x9003] (.siiAB0A0_9 .r3) = true
      ∧ readsAs [0xa003] (.siiAB0A0_a .r3) = true
      ∧ readsAs [0xb003] (.siiAB0A0_b .r3) = true
      ∧ readsAs [0xc003] (.siiAB0A0_c .r3) = true
      ∧ readsAs [0xd003] (.siiAB0A0_d .r3) = true
      ∧ readsAs [0xe003] (.siiAB0A0_e .r3) = true := by
  decide

theorem test_decode_reserved_long :
    readsAs [0xc1f0, 0x5679, 0x1234] (.siiBD0_c (.gp .r1)) = true
      ∧ readsAs [0xd1f0, 0x5679, 0x1234] (.siiBD0_d (.gp .r1)) = true
      ∧ readsAs [0xe1f0, 0x5679, 0x1234] (.siiBD0_e (.gp .r1)) = true
      ∧ readsAs [0xc0f3, 0x5679, 0x1234] (.siiBB0_c .r3) = true
      ∧ readsAs [0xd0f3, 0x5679, 0x1234] (.siiBB0_d .r3) = true
      ∧ readsAs [0xe0f3, 0x5679, 0x1234] (.siiBB0_e .r3) = true
      ∧ readsAs [0x0f23, 0x5679, 0x1234] (.siiC_0 (.gp .r2) (.gp .r3)) = true
      ∧ readsAs [0x1f23, 0x5679, 0x1234] (.siiC_1 (.gp .r2) (.gp .r3)) = true
      ∧ readsAs [0x2f23, 0x5679, 0x1234] (.siiC_2 (.gp .r2) (.gp .r3)) = true
      ∧ readsAs [0x4f23, 0x5679, 0x1234] (.siiC_4 (.gp .r2) (.gp .r3)) = true
      ∧ readsAs [0x8f23, 0x5679, 0x1234] (.siiC_8 (.gp .r2) (.gp .r3)) = true
      ∧ readsAs [0x9f23, 0x5679, 0x1234] (.siiC_9 (.gp .r2) (.gp .r3)) = true
      ∧ readsAs [0xaf23, 0x5679, 0x1234] (.siiC_a (.gp .r2) (.gp .r3)) = true
      ∧ readsAs [0xbf23, 0x5679, 0x1234] (.siiC_b (.gp .r2) (.gp .r3)) = true
      ∧ readsAs [0xcf23, 0x5679, 0x1234] (.siiC_c (.gp .r2) (.gp .r3)) = true
      ∧ readsAs [0xef23, 0x5679, 0x1234] (.siiC_e (.gp .r2) (.gp .r3)) = true
      ∧ readsAs [0xdf20, 0x5679, 0x1234] (.siiCD0_d (.gp .r2)) = true
      ∧ readsAs [0xdf03, 0x5679, 0x1234] (.siiCA0_d .r3) = true
      ∧ readsAs [0x016f, 0x5679, 0x1234] (.siiBr0 (.gp .r1) .x6) = true
      ∧ readsAs [0x712f, 0x5679, 0x1234] (.siiBr_7 (.gp .r1) (.gp .r2)) = true
      ∧ readsAs [0x812f, 0x5679, 0x1234] (.siiBr_8 (.gp .r1) (.gp .r2)) = true
      ∧ readsAs [0x912f, 0x5679, 0x1234] (.siiBr_9 (.gp .r1) (.gp .r2)) = true
      ∧ readsAs [0xa12f, 0x5679, 0x1234] (.siiBr_a (.gp .r1) (.gp .r2)) = true
      ∧ readsAs [0xb12f, 0x5679, 0x1234] (.siiBr_b (.gp .r1) (.gp .r2)) = true
      ∧ readsAs [0xc12f, 0x5679, 0x1234] (.siiBr_c (.gp .r1) (.gp .r2)) = true
      ∧ readsAs [0x5ff3, 0x5679, 0x1234] (.siiCD .x5 (.gp .r3)) = true
      ∧ readsAs [0x5fff, 0x5679, 0x1234] (.siiCOnly .x5) = true
      ∧ readsAs [0xf12f, 0x5679, 0x1234] (.siiLsADf .x1 .x2) = true
      ∧ readsAs [0xf1f3, 0x5679, 0x1234] (.siiLsAAf .x1 (.gp .r3)) = true := by
  decide

/-! ## One step of every instruction. The start states are those of spec/95_test_vectors.md -/

/-- The memory images M1 at 0x2000 and M2 at 0x3000. -/
def images : Memory :=
  [(0x2000, 0x80), (0x2001, 0x7f), (0x2002, 0xfe), (0x2003, 0xff), (0x2004, 0x78), (0x2005, 0x56),
    (0x2006, 0x34), (0x2007, 0x12), (0x3000, 0x44), (0x3001, 0x44), (0x3004, 0x81), (0x3005, 0x80),
    (0x3006, 0xff), (0x3007, 0xff)]

/-- A state with the images, the halfwords at the program counter, and R1 to R3. -/
def start (m : Mode) (tpc spc : Word) (hs : List Half) (r1 r2 r3 : Word) : State :=
  State.loadAtPc
    { State.reset with
      mode := m, tpc := pcOf tpc, spc := pcOf spc, mem := images
      gprs := { State.reset.gprs with r1 := r1, r2 := r2, r3 := r3 } } hs

/-- A `SCHED` row. -/
def sched (spc tpc : Word) (hs : List Half) (r1 r2 r3 : Word) : State :=
  start .scheduler tpc spc hs r1 r2 r3

/-- A `TASK` row. -/
def task (tpc : Word) (hs : List Half) (r1 r2 r3 : Word) : State :=
  start .task tpc 0x8000 hs r1 r2 r3

/-- The state with the interrupt request high at the next boundary. -/
def interrupting (s : State) : State := { s with irq := [true] }

/-- The fault of an outcome. -/
def faultOf (r : Result) : Option Fault :=
  match r with
  | .fault e => some e
  | _ => none

/-- What one step leaves, if it answers a next state. -/
def after {α : Type} (f : State → α) (s : State) : Option α :=
  match step s with
  | .next t => some (f t)
  | _ => none

/-- V-FA1: XOR R3 = R1 ^ R2. -/
theorem test_xor_fa1 :
    after (fun t => (t.gprs.r3, pcAddr t.spc))
        (sched 0x1000 0x4000 [0x0123] 0xff00ff00 0xff00ff0 0)
      = some (0xf0f0f0f0, 0x1002) := by
  decide

/-- V-FA3: XOR PC = R1 ^ R2 (jump, bit 0 dropped). -/
theorem test_xor_fa3 :
    after (fun t => pcAddr t.spc) (sched 0x1000 0x4000 [0x0120] 0x2001 0x10 0)
      = some 0x2010 := by
  decide

/-- V-FA4: OR R3 = R1 | R2. -/
theorem test_or_fa4 :
    after (fun t => (t.gprs.r3, pcAddr t.spc)) (sched 0x1000 0x4000 [0x1123] 0xf0 0xf 0)
      = some (0xff, 0x1002) := by
  decide

/-- V-FA8: OR PC = R2 | R2 (jump to odd value). -/
theorem test_or_fa8 :
    after (fun t => pcAddr t.spc) (sched 0x1000 0x4000 [0x1220] 0 0x2467 0)
      = some 0x2466 := by
  decide

/-- V-FA10: AND R3 = R1 & R2. -/
theorem test_and_fa10 :
    after (fun t => (t.gprs.r3, pcAddr t.spc))
        (sched 0x1000 0x4000 [0x2123] 0xff00ff00 0xff00ff0 0)
      = some (0xf000f00, 0x1002) := by
  decide

/-- V-FA11: SUB R3 = R2 - R1. -/
theorem test_sub_fa11 :
    after (fun t => (t.gprs.r3, pcAddr t.spc)) (sched 0x1000 0x4000 [0x3213] 7 5 0)
      = some (0xfffffffe, 0x1002) := by
  decide

/-- V-FA12: SUB 0 - 0x80000000. -/
theorem test_sub_fa12 :
    after (fun t => (t.gprs.r3, pcAddr t.spc)) (sched 0x1000 0x4000 [0x3213] 0x80000000 0 0)
      = some (0x80000000, 0x1002) := by
  decide

/-- V-FA14: ADD wraps. -/
theorem test_add_fa14 :
    after (fun t => (t.gprs.r3, pcAddr t.spc)) (sched 0x1000 0x4000 [0x4123] 0xffffffff 1 0)
      = some (0, 0x1002) := by
  decide

/-- V-FA17: ADD PC = R1 + R2 (computed jump). -/
theorem test_add_fa17 :
    after (fun t => pcAddr t.spc) (sched 0x1000 0x4000 [0x4120] 0x2000 0x35 0)
      = some 0x2034 := by
  decide

/-- V-FA21: SHL by 32. -/
theorem test_shl_fa21 :
    after (fun t => (t.gprs.r3, pcAddr t.spc)) (sched 0x1000 0x4000 [0x5123] 3 0x20 0)
      = some (3, 0x1002) := by
  decide

/-- V-FA22: SHL by 0xFFFFFFFF. -/
theorem test_shl_fa22 :
    after (fun t => (t.gprs.r3, pcAddr t.spc)) (sched 0x1000 0x4000 [0x5123] 3 0xffffffff 0)
      = some (0x80000000, 0x1002) := by
  decide

/-- V-FA23: SHR R3 = R1 >> R2. -/
theorem test_shr_fa23 :
    after (fun t => (t.gprs.r3, pcAddr t.spc)) (sched 0x1000 0x4000 [0x6123] 0x80000000 0x1f 0)
      = some (1, 0x1002) := by
  decide

/-- V-FA24: SHR by 4. -/
theorem test_shr_fa24 :
    after (fun t => (t.gprs.r3, pcAddr t.spc)) (sched 0x1000 0x4000 [0x6123] 0xf0000000 4 0)
      = some (0xf000000, 0x1002) := by
  decide

/-- V-FA25: SAR negative. -/
theorem test_sar_fa25 :
    after (fun t => (t.gprs.r3, pcAddr t.spc)) (sched 0x1000 0x4000 [0x7123] 0x80000000 0x1f 0)
      = some (0xffffffff, 0x1002) := by
  decide

/-- V-FA26: SAR by 4. -/
theorem test_sar_fa26 :
    after (fun t => (t.gprs.r3, pcAddr t.spc)) (sched 0x1000 0x4000 [0x7123] 0xf0000000 4 0)
      = some (0xff000000, 0x1002) := by
  decide

/-- V-FA30: MULS 0x12345678 * 0x9ABCDEF0. -/
theorem test_muls_fa30 :
    after (fun t => (t.gprs.r3, pcAddr t.spc))
        (sched 0x1000 0x4000 [0x8123] 0x12345678 0x9abcdef0 0)
      = some (0x242d2080, 0x1002) := by
  decide

/-- V-FA31: MULS PC = R1 * R2. -/
theorem test_muls_fa31 :
    after (fun t => pcAddr t.spc) (sched 0x1000 0x4000 [0x8120] 0x1000 3 0)
      = some 0x3000 := by
  decide

/-- V-FA32: MULU. -/
theorem test_mulu_fa32 :
    after (fun t => (t.gprs.r3, pcAddr t.spc))
        (sched 0x1000 0x4000 [0x9123] 0xffffffff 0xffffffff 0)
      = some (1, 0x1002) := by
  decide

/-- V-FA35: MULHS min * min. -/
theorem test_mulhs_fa35 :
    after (fun t => (t.gprs.r3, pcAddr t.spc))
        (sched 0x1000 0x4000 [0xa123] 0x80000000 0x80000000 0)
      = some (0x40000000, 0x1002) := by
  decide

/-- V-FA36: MULHS 0x12345678 * 0x9ABCDEF0. -/
theorem test_mulhs_fa36 :
    after (fun t => (t.gprs.r3, pcAddr t.spc))
        (sched 0x1000 0x4000 [0xa123] 0x12345678 0x9abcdef0 0)
      = some (0xf8cc93d6, 0x1002) := by
  decide

/-- V-FA38: MULHU 0x12345678 * 0x9ABCDEF0. -/
theorem test_mulhu_fa38 :
    after (fun t => (t.gprs.r3, pcAddr t.spc))
        (sched 0x1000 0x4000 [0xb123] 0x12345678 0x9abcdef0 0)
      = some (0xb00ea4e, 0x1002) := by
  decide

/-- V-FA39: INC R3 = R2 + 1. -/
theorem test_inc_fa39 :
    after (fun t => (t.gprs.r3, pcAddr t.spc)) (sched 0x1000 0x4000 [0x9023] 0 0xffffffff 0)
      = some (0, 0x1002) := by
  decide

/-- V-FA40: DEC R3 = R2 - 1. -/
theorem test_dec_fa40 :
    after (fun t => (t.gprs.r3, pcAddr t.spc)) (sched 0x1000 0x4000 [0x9203] 0 0 0)
      = some (0xffffffff, 0x1002) := by
  decide

/-- V-FA42: NEG of 0x80000000. -/
theorem test_neg_fa42 :
    after (fun t => (t.gprs.r3, pcAddr t.spc)) (sched 0x1000 0x4000 [0xa023] 0 0x80000000 0)
      = some (0x80000000, 0x1002) := by
  decide

/-- V-FA43: NOT R3 = ~R2. -/
theorem test_not_fa43 :
    after (fun t => (t.gprs.r3, pcAddr t.spc)) (sched 0x1000 0x4000 [0xa203] 0 0xf0f0f0f 0)
      = some (0xf0f0f0f0, 0x1002) := by
  decide

/-- V-FA44: BSWAP R3 = BSWAP R2. -/
theorem test_bswap_fa44 :
    after (fun t => (t.gprs.r3, pcAddr t.spc)) (sched 0x1000 0x4000 [0xb023] 0 0x12345678 0)
      = some (0x78563412, 0x1002) := by
  decide

/-- V-FA45: WSWAP R3 = WSWAP R2. -/
theorem test_wswap_fa45 :
    after (fun t => (t.gprs.r3, pcAddr t.spc)) (sched 0x1000 0x4000 [0xb203] 0 0x12345678 0)
      = some (0x56781234, 0x1002) := by
  decide

/-- V-FA46: BSI sign-extends bit 7. -/
theorem test_bsi_fa46 :
    after (fun t => (t.gprs.r3, pcAddr t.spc)) (sched 0x1000 0x4000 [0xc023] 0 0x12345680 0)
      = some (0xffffff80, 0x1002) := by
  decide

/-- V-FA47: BSI positive byte. -/
theorem test_bsi_fa47 :
    after (fun t => (t.gprs.r3, pcAddr t.spc)) (sched 0x1000 0x4000 [0xc023] 0 0xffffff7f 0)
      = some (0x7f, 0x1002) := by
  decide

/-- V-FA48: WSI sign-extends bit 15. -/
theorem test_wsi_fa48 :
    after (fun t => (t.gprs.r3, pcAddr t.spc)) (sched 0x1000 0x4000 [0xc203] 0 0x12348000 0)
      = some (0xffff8000, 0x1002) := by
  decide

/-- V-FA49: WSI positive halfword. -/
theorem test_wsi_fa49 :
    after (fun t => (t.gprs.r3, pcAddr t.spc)) (sched 0x1000 0x4000 [0xc203] 0 0xffff7fff 0)
      = some (0x7fff, 0x1002) := by
  decide

/-- V-FA50: XMOV TPC = R2 (SCHEDULER). -/
theorem test_xmov_fa50 :
    after (fun t => (pcAddr t.tpc, pcAddr t.spc)) (sched 0x1000 0x4000 [0x8020] 0 0x5001 0)
      = some (0x5000, 0x1002) := by
  decide

/-- V-FA54: XMOV R3 = TPC (TASK: reads pc). -/
theorem test_xmov_fa54 :
    after (fun t => (t.gprs.r3, pcAddr t.tpc)) (task 0x4000 [0x8003] 0 0 0)
      = some (0x4000, 0x4002) := by
  decide

/-- V-SY1: FILL in TASK. -/
theorem test_fill_sy1 :
    after (fun t => (t.mode, pcAddr t.tpc)) (task 0x4000 [0x0000] 0 0 0)
      = some (Mode.scheduler, 0x4002) := by
  decide

/-- V-SY4: FILL in SCHEDULER. -/
theorem test_fill_sy4 :
    after (fun t => pcAddr t.spc) (sched 0x1000 0x4000 [0x0000] 0 0 0)
      = some 0x1002 := by
  decide

/-- V-SY2: BREAK in TASK. -/
theorem test_brk_sy2 :
    after (fun t => (t.mode, pcAddr t.tpc)) (task 0x4000 [0x0110] 0 0 0)
      = some (Mode.scheduler, 0x4002) := by
  decide

/-- V-SY5: BREAK in SCHEDULER. -/
theorem test_brk_sy5 :
    after (fun t => pcAddr t.spc) (sched 0x1000 0x4000 [0x0110] 0 0 0)
      = some 0x1002 := by
  decide

/-- V-SY3: SYSCALL in TASK. -/
theorem test_syscall_sy3 :
    after (fun t => (t.mode, pcAddr t.tpc)) (task 0x4000 [0x0220] 0 0 0)
      = some (Mode.scheduler, 0x4002) := by
  decide

/-- V-SY6: SYSCALL in SCHEDULER. -/
theorem test_syscall_sy6 :
    after (fun t => pcAddr t.spc) (sched 0x1000 0x4000 [0x0220] 0 0 0)
      = some 0x1002 := by
  decide

/-- V-SY7: STU in SCHEDULER. -/
theorem test_stu_sy7 :
    after (fun t => (t.mode, pcAddr t.spc)) (sched 0x1000 0x4000 [0x0330] 0 0 0)
      = some (Mode.task, 0x1002) := by
  decide

/-- V-SY8: STU in TASK. -/
theorem test_stu_sy8 :
    after (fun t => pcAddr t.tpc) (task 0x4000 [0x0330] 0 0 0)
      = some 0x4002 := by
  decide

/-- V-SY13: FENCE. -/
theorem test_fence_sy13 :
    after (fun t => pcAddr t.spc) (sched 0x1000 0x4000 [0x0dd0] 0 0 0)
      = some 0x1002 := by
  decide

/-- V-SY14: WFENCE. -/
theorem test_wfence_sy14 :
    after (fun t => pcAddr t.spc) (sched 0x1000 0x4000 [0x0ee0] 0 0 0)
      = some 0x1002 := by
  decide

/-- V-SY16: WOI in SCHEDULER. -/
theorem test_woi_sy16 :
    after (fun t => pcAddr t.spc) (sched 0x1000 0x4000 [0x1000] 0 0 0)
      = some 0x1000 := by
  decide

/-- V-SY18: WOI in TASK, irq = 1. -/
theorem test_interrupt_sy18 :
    after (fun t => (t.mode, pcAddr t.tpc)) (interrupting (task 0x4000 [0x1000] 0 0 0))
      = some (Mode.scheduler, 0x4000) := by
  decide

/-- V-SY19: interrupt before an ADD. -/
theorem test_interrupt_sy19 :
    after (fun t => (t.mode, pcAddr t.tpc)) (interrupting (task 0x4000 [0x4123] 1 2 0))
      = some (Mode.scheduler, 0x4000) := by
  decide

/-- V-FB1: XORI R3 = R1 ^ VALUE. -/
theorem test_xori_fb1 :
    after (fun t => (t.gprs.r3, pcAddr t.spc))
        (sched 0x1000 0x4000 [0x01f3, 0xffff, 0xffff] 0x12345678 0 0)
      = some (0xedcba987, 0x1006) := by
  decide

/-- V-FB2: LI R3 = VALUE. -/
theorem test_li_fb2 :
    after (fun t => (t.gprs.r3, pcAddr t.spc)) (sched 0x1000 0x4000 [0x0ff3, 0xbeef, 0xdead] 0 0 0)
      = some (0xdeadbeef, 0x1006) := by
  decide

/-- V-FB3: LI PC = VALUE (absolute jump). -/
theorem test_li_fb3 :
    after (fun t => pcAddr t.spc) (sched 0x1000 0x4000 [0x0ff0, 0x2001, 0x0000] 0 0 0)
      = some 0x2000 := by
  decide

/-- V-FB4: ORI R3 = R1 | VALUE. -/
theorem test_ori_fb4 :
    after (fun t => (t.gprs.r3, pcAddr t.spc))
        (sched 0x1000 0x4000 [0x11f3, 0xff00, 0x0000] 0xff 0 0)
      = some (0xffff, 0x1006) := by
  decide

/-- V-FB6: LIT TPC = VALUE (SCHEDULER). -/
theorem test_lit_fb6 :
    after (fun t => (pcAddr t.tpc, pcAddr t.spc))
        (sched 0x1000 0x4000 [0x1ff0, 0x5003, 0x0000] 0 0 0)
      = some (0x5002, 0x1006) := by
  decide

/-- V-FB7: LIT TPC = VALUE (TASK: a jump). -/
theorem test_lit_fb7 :
    after (fun t => pcAddr t.tpc) (task 0x4000 [0x1ff0, 0x5000, 0x0000] 0 0 0)
      = some 0x5000 := by
  decide

/-- V-FB8: ANDI. -/
theorem test_andi_fb8 :
    after (fun t => (t.gprs.r3, pcAddr t.spc))
        (sched 0x1000 0x4000 [0x21f3, 0xff00, 0x00ff] 0x12345678 0 0)
      = some (0x345600, 0x1006) := by
  decide

/-- V-FB9: SUBI R3 = R1 - VALUE. -/
theorem test_subi_fb9 :
    after (fun t => (t.gprs.r3, pcAddr t.spc)) (sched 0x1000 0x4000 [0x31f3, 0x000a, 0x0000] 3 0 0)
      = some (0xfffffff9, 0x1006) := by
  decide

/-- V-FB10: ADDI negative VALUE. -/
theorem test_addi_fb10 :
    after (fun t => (t.gprs.r3, pcAddr t.spc)) (sched 0x1000 0x4000 [0x41f3, 0xffff, 0xffff] 5 0 0)
      = some (4, 0x1006) := by
  decide

/-- V-FB12: ADDI PC = PC + VALUE (relative jump). -/
theorem test_addi_fb12 :
    after (fun t => pcAddr t.spc) (sched 0x1000 0x4000 [0x40f0, 0xfff0, 0xffff] 0 0 0)
      = some 0xff0 := by
  decide

/-- V-FB13: SHLI. -/
theorem test_shli_fb13 :
    after (fun t => (t.gprs.r3, pcAddr t.spc))
        (sched 0x1000 0x4000 [0x51f3, 0x0004, 0x0000] 0xf 0 0)
      = some (0xf0, 0x1006) := by
  decide

/-- V-FB14: SHLI by 36. -/
theorem test_shli_fb14 :
    after (fun t => (t.gprs.r3, pcAddr t.spc))
        (sched 0x1000 0x4000 [0x51f3, 0x0024, 0x0000] 0xf 0 0)
      = some (0xf0, 0x1006) := by
  decide

/-- V-FB15: SHRI. -/
theorem test_shri_fb15 :
    after (fun t => (t.gprs.r3, pcAddr t.spc))
        (sched 0x1000 0x4000 [0x61f3, 0x001c, 0x0000] 0xf0000000 0 0)
      = some (0xf, 0x1006) := by
  decide

/-- V-FB16: SARI. -/
theorem test_sari_fb16 :
    after (fun t => (t.gprs.r3, pcAddr t.spc))
        (sched 0x1000 0x4000 [0x71f3, 0x001c, 0x0000] 0xf0000000 0 0)
      = some (0xffffffff, 0x1006) := by
  decide

/-- V-FB17: MULSI. -/
theorem test_mulsi_fb17 :
    after (fun t => (t.gprs.r3, pcAddr t.spc)) (sched 0x1000 0x4000 [0x81f3, 0xfffe, 0xffff] 7 0 0)
      = some (0xfffffff2, 0x1006) := by
  decide

/-- V-FB18: MULUI. -/
theorem test_mului_fb18 :
    after (fun t => (t.gprs.r3, pcAddr t.spc))
        (sched 0x1000 0x4000 [0x91f3, 0x0001, 0x0001] 0x10000 0 0)
      = some (0x10000, 0x1006) := by
  decide

/-- V-FB19: MULHSI -2 * -3. -/
theorem test_mulhsi_fb19 :
    after (fun t => (t.gprs.r3, pcAddr t.spc))
        (sched 0x1000 0x4000 [0xa1f3, 0xfffd, 0xffff] 0xfffffffe 0 0)
      = some (0, 0x1006) := by
  decide

/-- V-FB20: MULHSI 0x40000000 * 8. -/
theorem test_mulhsi_fb20 :
    after (fun t => (t.gprs.r3, pcAddr t.spc))
        (sched 0x1000 0x4000 [0xa1f3, 0x0008, 0x0000] 0x40000000 0 0)
      = some (2, 0x1006) := by
  decide

/-- V-FB21: MULHUI 0xFFFFFFFE * 0xFFFFFFFD. -/
theorem test_mulhui_fb21 :
    after (fun t => (t.gprs.r3, pcAddr t.spc))
        (sched 0x1000 0x4000 [0xb1f3, 0xfffd, 0xffff] 0xfffffffe 0 0)
      = some (0xfffffffb, 0x1006) := by
  decide

/-- V-FC1: ISUB R3 = VALUE - R2. -/
theorem test_isub_fc1 :
    after (fun t => (t.gprs.r3, pcAddr t.spc)) (sched 0x1000 0x4000 [0x3f23, 0x000a, 0x0000] 0 3 0)
      = some (7, 0x1006) := by
  decide

/-- V-FC3: ISUB R3 = VALUE - PC. -/
theorem test_isub_fc3 :
    after (fun t => (t.gprs.r3, pcAddr t.spc)) (sched 0x1000 0x4000 [0x3f03, 0x1000, 0x0000] 0 0 0)
      = some (0, 0x1006) := by
  decide

/-- V-FC4: ISHL R3 = VALUE << R2. -/
theorem test_ishl_fc4 :
    after (fun t => (t.gprs.r3, pcAddr t.spc))
        (sched 0x1000 0x4000 [0x5f23, 0x0001, 0x0000] 0 0x1f 0)
      = some (0x80000000, 0x1006) := by
  decide

/-- V-FC5: ISHL amount 33. -/
theorem test_ishl_fc5 :
    after (fun t => (t.gprs.r3, pcAddr t.spc))
        (sched 0x1000 0x4000 [0x5f23, 0x0001, 0x0000] 0 0x21 0)
      = some (2, 0x1006) := by
  decide

/-- V-FC6: ISHR R3 = VALUE >> R2. -/
theorem test_ishr_fc6 :
    after (fun t => (t.gprs.r3, pcAddr t.spc))
        (sched 0x1000 0x4000 [0x6f23, 0x0000, 0x8000] 0 0x1f 0)
      = some (1, 0x1006) := by
  decide

/-- V-FC7: ISAR R3 = signed VALUE >> R2. -/
theorem test_isar_fc7 :
    after (fun t => (t.gprs.r3, pcAddr t.spc))
        (sched 0x1000 0x4000 [0x7f23, 0x0000, 0x8000] 0 0x1f 0)
      = some (0xffffffff, 0x1006) := by
  decide

/-- V-FC8: ISAR positive. -/
theorem test_isar_fc8 :
    after (fun t => (t.gprs.r3, pcAddr t.spc))
        (sched 0x1000 0x4000 [0x7f23, 0x0000, 0x4000] 0 0x1e 0)
      = some (1, 0x1006) := by
  decide

/-- V-BR1: BEQZ taken, absolute. -/
theorem test_beqz_br1 :
    after (fun t => pcAddr t.spc) (sched 0x1000 0x4000 [0x010f, 0x2000, 0x0000] 0 0 0)
      = some 0x2000 := by
  decide

/-- V-BR2: BEQZ not taken. -/
theorem test_beqz_br2 :
    after (fun t => pcAddr t.spc) (sched 0x1000 0x4000 [0x010f, 0x2000, 0x0000] 1 0 0)
      = some 0x1006 := by
  decide

/-- V-BR3: BNEZ taken, relative -8. -/
theorem test_bnez_br3 :
    after (fun t => pcAddr t.spc) (sched 0x1000 0x4000 [0x011f, 0xfff9, 0xffff] 5 0 0)
      = some 0xff8 := by
  decide

/-- V-BR4: BNEZ not taken. -/
theorem test_bnez_br4 :
    after (fun t => pcAddr t.spc) (sched 0x1000 0x4000 [0x011f, 0xfff9, 0xffff] 0 0 0)
      = some 0x1006 := by
  decide

/-- V-BR5: BLTZ taken. -/
theorem test_bltz_br5 :
    after (fun t => pcAddr t.spc) (sched 0x1000 0x4000 [0x012f, 0x2000, 0x0000] 0x80000000 0 0)
      = some 0x2000 := by
  decide

/-- V-BR6: BLTZ not taken on 0. -/
theorem test_bltz_br6 :
    after (fun t => pcAddr t.spc) (sched 0x1000 0x4000 [0x012f, 0x2000, 0x0000] 0 0 0)
      = some 0x1006 := by
  decide

/-- V-BR7: BGEZ taken on 0. -/
theorem test_bgez_br7 :
    after (fun t => pcAddr t.spc) (sched 0x1000 0x4000 [0x013f, 0x2000, 0x0000] 0 0 0)
      = some 0x2000 := by
  decide

/-- V-BR8: BGEZ not taken. -/
theorem test_bgez_br8 :
    after (fun t => pcAddr t.spc) (sched 0x1000 0x4000 [0x013f, 0x2000, 0x0000] 0xffffffff 0 0)
      = some 0x1006 := by
  decide

/-- V-BR9: BGTZ not taken on 0. -/
theorem test_bgtz_br9 :
    after (fun t => pcAddr t.spc) (sched 0x1000 0x4000 [0x014f, 0x2000, 0x0000] 0 0 0)
      = some 0x1006 := by
  decide

/-- V-BR10: BGTZ taken. -/
theorem test_bgtz_br10 :
    after (fun t => pcAddr t.spc) (sched 0x1000 0x4000 [0x014f, 0x2000, 0x0000] 1 0 0)
      = some 0x2000 := by
  decide

/-- V-BR11: BLEZ taken on 0. -/
theorem test_blez_br11 :
    after (fun t => pcAddr t.spc) (sched 0x1000 0x4000 [0x015f, 0x2000, 0x0000] 0 0 0)
      = some 0x2000 := by
  decide

/-- V-BR12: BLEZ not taken. -/
theorem test_blez_br12 :
    after (fun t => pcAddr t.spc) (sched 0x1000 0x4000 [0x015f, 0x2000, 0x0000] 0x7fffffff 0 0)
      = some 0x1006 := by
  decide

/-- V-BR13: BEQ taken. -/
theorem test_beq_br13 :
    after (fun t => pcAddr t.spc) (sched 0x1000 0x4000 [0x112f, 0x2000, 0x0000] 9 9 0)
      = some 0x2000 := by
  decide

/-- V-BR33: relative target wraps past 2^32. -/
theorem test_beq_br33 :
    after (fun t => pcAddr t.spc) (sched 0xfffff000 0x4000 [0x100f, 0x2001, 0x0000] 0 0 0)
      = some 0x1000 := by
  decide

/-- V-BR15: BNE taken, relative +0x20. -/
theorem test_bne_br15 :
    after (fun t => pcAddr t.spc) (sched 0x1000 0x4000 [0x212f, 0x0021, 0x0000] 9 8 0)
      = some 0x1020 := by
  decide

/-- V-BR16: BLTS -1 < 1 taken. -/
theorem test_blts_br16 :
    after (fun t => pcAddr t.spc) (sched 0x1000 0x4000 [0x312f, 0x2000, 0x0000] 0xffffffff 1 0)
      = some 0x2000 := by
  decide

/-- V-BR17: BLTU 0xFFFFFFFF < 1 not taken. -/
theorem test_bltu_br17 :
    after (fun t => pcAddr t.spc) (sched 0x1000 0x4000 [0x512f, 0x2000, 0x0000] 0xffffffff 1 0)
      = some 0x1006 := by
  decide

/-- V-BR18: BGES -1 >= 1 not taken. -/
theorem test_bges_br18 :
    after (fun t => pcAddr t.spc) (sched 0x1000 0x4000 [0x412f, 0x2000, 0x0000] 0xffffffff 1 0)
      = some 0x1006 := by
  decide

/-- V-BR20: BGES equal operands taken. -/
theorem test_bges_br20 :
    after (fun t => pcAddr t.spc) (sched 0x1000 0x4000 [0x412f, 0x2000, 0x0000] 4 4 0)
      = some 0x2000 := by
  decide

/-- V-BR19: BGEU 0xFFFFFFFF >= 1 taken. -/
theorem test_bgeu_br19 :
    after (fun t => pcAddr t.spc) (sched 0x1000 0x4000 [0x612f, 0x2000, 0x0000] 0xffffffff 1 0)
      = some 0x2000 := by
  decide

/-- V-BR24: BBS bit 3 of R2 set, taken. -/
theorem test_bbs_br24 :
    after (fun t => pcAddr t.spc) (sched 0x1000 0x4000 [0x3f2f, 0x2000, 0x0000] 0 8 0)
      = some 0x2000 := by
  decide

/-- V-BR26: BBS bit 14. -/
theorem test_bbs_br26 :
    after (fun t => pcAddr t.spc) (sched 0x1000 0x4000 [0xef2f, 0x2000, 0x0000] 0 0x4000 0)
      = some 0x2000 := by
  decide

/-- V-BR27: BBC bit 0 of R2 clear, taken. -/
theorem test_bbc_br27 :
    after (fun t => pcAddr t.spc) (sched 0x1000 0x4000 [0x02ff, 0x2000, 0x0000] 0 0xfffffffe 0)
      = some 0x2000 := by
  decide

/-- V-BR29: BBC bit 14, relative. -/
theorem test_bbc_br29 :
    after (fun t => pcAddr t.spc) (sched 0x1000 0x4000 [0xe2ff, 0x0101, 0x0000] 0 0 0)
      = some 0x1100 := by
  decide

/-- V-LS1: LDSB R3 = MEM8[R2] signed. -/
theorem test_ldsbA_ls1 :
    after (fun t => (t.gprs.r3, pcAddr t.spc)) (sched 0x1000 0x4000 [0xf023] 0 0x2000 0)
      = some (0xffffff80, 0x1002) := by
  decide

/-- V-LS3: LDSB positive byte. -/
theorem test_ldsbA_ls3 :
    after (fun t => (t.gprs.r3, pcAddr t.spc)) (sched 0x1000 0x4000 [0xf023] 0 0x2001 0)
      = some (0x7f, 0x1002) := by
  decide

/-- V-LS2: LDUB. -/
theorem test_ldubA_ls2 :
    after (fun t => (t.gprs.r3, pcAddr t.spc)) (sched 0x1000 0x4000 [0xf123] 0 0x2000 0)
      = some (0x80, 0x1002) := by
  decide

/-- V-LS4: LDSH. -/
theorem test_ldshA_ls4 :
    after (fun t => (t.gprs.r3, pcAddr t.spc)) (sched 0x1000 0x4000 [0xf223] 0 0x2002 0)
      = some (0xfffffffe, 0x1002) := by
  decide

/-- V-LS5: LDUH. -/
theorem test_lduhA_ls5 :
    after (fun t => (t.gprs.r3, pcAddr t.spc)) (sched 0x1000 0x4000 [0xf323] 0 0x2002 0)
      = some (0xfffe, 0x1002) := by
  decide

/-- V-LS6: LDW. -/
theorem test_ldwA_ls6 :
    after (fun t => (t.gprs.r3, pcAddr t.spc)) (sched 0x1000 0x4000 [0xf423] 0 0x2004 0)
      = some (0x12345678, 0x1002) := by
  decide

/-- V-LS8: LDW PC = MEM32[R2] (jump through memory). -/
theorem test_ldwA_ls8 :
    after (fun t => pcAddr t.spc) (sched 0x1000 0x4000 [0xf420] 0 0x3000 0)
      = some 0x4444 := by
  decide

/-- V-LS11: STB stores low byte. -/
theorem test_stbA_ls11 :
    after (fun t => (pcAddr t.spc, [0x2001].map t.readByte))
        (sched 0x1000 0x4000 [0xf523] 0 0x2001 0xaabbccdd)
      = some (0x1002, [0xdd]) := by
  decide

/-- V-LS12: STH stores low halfword. -/
theorem test_sthA_ls12 :
    after (fun t => (pcAddr t.spc, [0x2002, 0x2003].map t.readByte))
        (sched 0x1000 0x4000 [0xf623] 0 0x2002 0xaabbccdd)
      = some (0x1002, [0xdd, 0xcc]) := by
  decide

/-- V-LS13: STW. -/
theorem test_stwA_ls13 :
    after (fun t => (pcAddr t.spc, [0x2004, 0x2005, 0x2006, 0x2007].map t.readByte))
        (sched 0x1000 0x4000 [0xf723] 0 0x2004 0xaabbccdd)
      = some (0x1002, [0xdd, 0xcc, 0xbb, 0xaa]) := by
  decide

/-- V-LS14: STW MEM32[R2] = PC (D = 0). -/
theorem test_stwA_ls14 :
    after (fun t => (pcAddr t.spc, [0x2000, 0x2001, 0x2002, 0x2003].map t.readByte))
        (sched 0x1000 0x4000 [0xf720] 0 0x2000 0)
      = some (0x1002, [0, 0x10, 0, 0]) := by
  decide

/-- V-LS15: LDSB form C. -/
theorem test_ldsbC_ls15 :
    after (fun t => (t.gprs.r3, pcAddr t.spc)) (sched 0x1000 0x4000 [0xf8f3, 0x3005, 0x0000] 0 0 0)
      = some (0xffffff80, 0x1006) := by
  decide

/-- V-LS16: LDUB form C. -/
theorem test_ldubC_ls16 :
    after (fun t => (t.gprs.r3, pcAddr t.spc)) (sched 0x1000 0x4000 [0xf9f3, 0x3005, 0x0000] 0 0 0)
      = some (0x80, 0x1006) := by
  decide

/-- V-LS17: LDSH form C. -/
theorem test_ldshC_ls17 :
    after (fun t => (t.gprs.r3, pcAddr t.spc)) (sched 0x1000 0x4000 [0xfaf3, 0x3004, 0x0000] 0 0 0)
      = some (0xffff8081, 0x1006) := by
  decide

/-- V-LS18: LDUH form C. -/
theorem test_lduhC_ls18 :
    after (fun t => (t.gprs.r3, pcAddr t.spc)) (sched 0x1000 0x4000 [0xfbf3, 0x3004, 0x0000] 0 0 0)
      = some (0x8081, 0x1006) := by
  decide

/-- V-LS19: LDW form C. -/
theorem test_ldwC_ls19 :
    after (fun t => (t.gprs.r3, pcAddr t.spc)) (sched 0x1000 0x4000 [0xfcf3, 0x3000, 0x0000] 0 0 0)
      = some (0x4444, 0x1006) := by
  decide

/-- V-LS20: LDW form C into PC. -/
theorem test_ldwC_ls20 :
    after (fun t => pcAddr t.spc) (sched 0x1000 0x4000 [0xfcf0, 0x3000, 0x0000] 0 0 0)
      = some 0x4444 := by
  decide

/-- V-LS21: LDW form C into TPC (SCHEDULER). -/
theorem test_ldwCTpc_ls21 :
    after (fun t => (pcAddr t.tpc, pcAddr t.spc))
        (sched 0x1000 0x4000 [0xfcff, 0x3000, 0x0000] 0 0 0)
      = some (0x4444, 0x1006) := by
  decide

/-- V-LS22: LDW form C into TPC (TASK: a jump). -/
theorem test_ldwCTpc_ls22 :
    after (fun t => pcAddr t.tpc) (task 0x4000 [0xfcff, 0x3000, 0x0000] 0 0 0)
      = some 0x4444 := by
  decide

/-- V-LS23: STB form C. -/
theorem test_stbC_ls23 :
    after (fun t => (pcAddr t.spc, [0x3001].map t.readByte))
        (sched 0x1000 0x4000 [0xfdf3, 0x3001, 0x0000] 0 0 0xa1b2c3d4)
      = some (0x1006, [0xd4]) := by
  decide

/-- V-LS24: STH form C. -/
theorem test_sthC_ls24 :
    after (fun t => (pcAddr t.spc, [0x3002, 0x3003].map t.readByte))
        (sched 0x1000 0x4000 [0xfef3, 0x3002, 0x0000] 0 0 0xa1b2c3d4)
      = some (0x1006, [0xd4, 0xc3]) := by
  decide

/-- V-LS25: STW form C. -/
theorem test_stwC_ls25 :
    after (fun t => (pcAddr t.spc, [0x3000, 0x3001, 0x3002, 0x3003].map t.readByte))
        (sched 0x1000 0x4000 [0xfff3, 0x3000, 0x0000] 0 0 0xa1b2c3d4)
      = some (0x1006, [0xd4, 0xc3, 0xb2, 0xa1]) := by
  decide

/-- V-LS26: STW form C of TPC (INST 0xffff). -/
theorem test_stwCTpc_ls26 :
    after (fun t => (pcAddr t.spc, [0x3004, 0x3005, 0x3006, 0x3007].map t.readByte))
        (sched 0x1000 0x4008 [0xffff, 0x3004, 0x0000] 0 0 0)
      = some (0x1006, [8, 0x40, 0, 0]) := by
  decide

/-- V-LS27: STW form C of TPC in TASK stores pc. -/
theorem test_stwCTpc_ls27 :
    after (fun t => (pcAddr t.tpc, [0x3004, 0x3005, 0x3006, 0x3007].map t.readByte))
        (task 0x4000 [0xffff, 0x3004, 0x0000] 0 0 0)
      = some (0x4006, [0, 0x40, 0, 0]) := by
  decide

/-- V-LS28: LDW form D. -/
theorem test_ldwD_ls28 :
    after (fun t => (t.gprs.r3, pcAddr t.spc))
        (sched 0x1000 0x4000 [0xfc23, 0x0004, 0x0000] 0 0x2000 0)
      = some (0x12345678, 0x1006) := by
  decide

/-- V-LS33: LDW form D, address wraps. -/
theorem test_ldwD_ls33 :
    after (fun t => (t.gprs.r3, pcAddr t.spc))
        (sched 0x1000 0x4000 [0xfc23, 0x2008, 0x0000] 0 0xfffffffc 0)
      = some (0x12345678, 0x1006) := by
  decide

/-- V-LS29: LDSH form D negative VALUE. -/
theorem test_ldshD_ls29 :
    after (fun t => (t.gprs.r3, pcAddr t.spc))
        (sched 0x1000 0x4000 [0xfa23, 0xfffe, 0xffff] 0 0x2004 0)
      = some (0xfffffffe, 0x1006) := by
  decide

/-- V-LS30: LDUB form D. -/
theorem test_ldubD_ls30 :
    after (fun t => (t.gprs.r3, pcAddr t.spc))
        (sched 0x1000 0x4000 [0xf923, 0x0003, 0x0000] 0 0x2000 0)
      = some (0xff, 0x1006) := by
  decide

/-- V-LS31: LDSB form D. -/
theorem test_ldsbD_ls31 :
    after (fun t => (t.gprs.r3, pcAddr t.spc))
        (sched 0x1000 0x4000 [0xf823, 0x0003, 0x0000] 0 0x2000 0)
      = some (0xffffffff, 0x1006) := by
  decide

/-- V-LS32: LDUH form D. -/
theorem test_lduhD_ls32 :
    after (fun t => (t.gprs.r3, pcAddr t.spc))
        (sched 0x1000 0x4000 [0xfb23, 0x0002, 0x0000] 0 0x2000 0)
      = some (0xfffe, 0x1006) := by
  decide

/-- V-LS35: LDW form D into TPC (SCHEDULER). -/
theorem test_ldwDTpc_ls35 :
    after (fun t => (pcAddr t.tpc, pcAddr t.spc))
        (sched 0x1000 0x4000 [0xfc2f, 0x0000, 0x0000] 0 0x3000 0)
      = some (0x4444, 0x1006) := by
  decide

/-- V-LS36: STB form D. -/
theorem test_stbD_ls36 :
    after (fun t => (pcAddr t.spc, [0x3001].map t.readByte))
        (sched 0x1000 0x4000 [0xfd23, 0x0001, 0x0000] 0 0x3000 0xa1b2c3d4)
      = some (0x1006, [0xd4]) := by
  decide

/-- V-LS37: STH form D. -/
theorem test_sthD_ls37 :
    after (fun t => (pcAddr t.spc, [0x3002, 0x3003].map t.readByte))
        (sched 0x1000 0x4000 [0xfe23, 0x0002, 0x0000] 0 0x3000 0xa1b2c3d4)
      = some (0x1006, [0xd4, 0xc3]) := by
  decide

/-- V-LS38: STW form D. -/
theorem test_stwD_ls38 :
    after (fun t => (pcAddr t.spc, [0x3004, 0x3005, 0x3006, 0x3007].map t.readByte))
        (sched 0x1000 0x4000 [0xff23, 0x0004, 0x0000] 0 0x3000 0xa1b2c3d4)
      = some (0x1006, [0xd4, 0xc3, 0xb2, 0xa1]) := by
  decide

/-- V-LS39: STW form D of TPC. -/
theorem test_stwDTpc_ls39 :
    after (fun t => (pcAddr t.spc, [0x3004, 0x3005, 0x3006, 0x3007].map t.readByte))
        (sched 0x1000 0x400c [0xff2f, 0x0004, 0x0000] 0 0x3000 0)
      = some (0x1006, [0xc, 0x40, 0, 0]) := by
  decide

/-- The example of R313. -/
theorem test_ldsbCTpc :
    after (fun t => (pcAddr t.spc, pcAddr t.tpc))
        (sched 0x1000 0x4000 [0xf8ff, 0x3004, 0x0000] 0 0 0)
      = some (0x1006, 0xffffff80) := by
  decide

/-- The example of R314. -/
theorem test_ldubCTpc :
    after (fun t => (pcAddr t.spc, pcAddr t.tpc))
        (sched 0x1000 0x4000 [0xf9ff, 0x3004, 0x0000] 0 0 0)
      = some (0x1006, 0x80) := by
  decide

/-- The example of R315. -/
theorem test_ldshCTpc :
    after (fun t => (pcAddr t.spc, pcAddr t.tpc))
        (sched 0x1000 0x4000 [0xfaff, 0x3004, 0x0000] 0 0 0)
      = some (0x1006, 0xffff8080) := by
  decide

/-- The example of R316. -/
theorem test_lduhCTpc :
    after (fun t => (pcAddr t.spc, pcAddr t.tpc))
        (sched 0x1000 0x4000 [0xfbff, 0x3004, 0x0000] 0 0 0)
      = some (0x1006, 0x8080) := by
  decide

/-- The example of R318. -/
theorem test_stbCTpc :
    after (fun t => (pcAddr t.spc, t.readByte 0x3008))
        (sched 0x1000 0x4444 [0xfdff, 0x3008, 0x0000] 0 0 0)
      = some (0x1006, 0x44) := by
  decide

/-- The example of R319. -/
theorem test_sthCTpc :
    after (fun t => (pcAddr t.spc, [t.readByte 0x3008, t.readByte 0x3009]))
        (sched 0x1000 0x12344444 [0xfeff, 0x3008, 0x0000] 0 0 0)
      = some (0x1006, [0x44, 0x44]) := by
  decide

/-- The example of R321. -/
theorem test_ldsbDTpc :
    after (fun t => (pcAddr t.spc, pcAddr t.tpc))
        (sched 0x1000 0x4000 [0xf82f, 0x0004, 0x0000] 0 0x3000 0)
      = some (0x1006, 0xffffff80) := by
  decide

/-- The example of R314 and R304. -/
theorem test_ldubDTpc :
    after (fun t => (pcAddr t.spc, pcAddr t.tpc))
        (sched 0x1000 0x4000 [0xf92f, 0x0004, 0x0000] 0 0x3000 0)
      = some (0x1006, 0x80) := by
  decide

/-- The example of R315 and R304. -/
theorem test_ldshDTpc :
    after (fun t => (pcAddr t.spc, pcAddr t.tpc))
        (sched 0x1000 0x4000 [0xfa2f, 0x0004, 0x0000] 0 0x3000 0)
      = some (0x1006, 0xffff8080) := by
  decide

/-- The example of R316 and R304. -/
theorem test_lduhDTpc :
    after (fun t => (pcAddr t.spc, pcAddr t.tpc))
        (sched 0x1000 0x4000 [0xfb2f, 0x0004, 0x0000] 0 0x3000 0)
      = some (0x1006, 0x8080) := by
  decide

/-- The example of R318 and R304. -/
theorem test_stbDTpc :
    after (fun t => (pcAddr t.spc, t.readByte 0x3008))
        (sched 0x1000 0x4444 [0xfd2f, 0x0008, 0x0000] 0 0x3000 0)
      = some (0x1006, 0x44) := by
  decide

/-- The example of R319 and R304. -/
theorem test_sthDTpc :
    after (fun t => (pcAddr t.spc, [t.readByte 0x3008, t.readByte 0x3009]))
        (sched 0x1000 0x12344444 [0xfe2f, 0x0008, 0x0000] 0 0x3000 0)
      = some (0x1006, [0x44, 0x44]) := by
  decide

/-! Floating point: FP is uninterpreted, so the tests say which function gets which operand. -/

/-- What one instruction leaves in R3, if it answers a next state. -/
def r3After (i : Instr) (s : State) : Option Word :=
  match exec i s with
  | .next t => some t.gprs.r3
  | _ => none

theorem test_fadd :
    r3After (.fadd .r1 .r2 .r3) (sched 0x1000 0x4000 [] 1 2 0) = some (FP.add 1 2) :=
  rfl
theorem test_fsub :
    r3After (.fsub .r1 .r2 .r3) (sched 0x1000 0x4000 [] 1 2 0) = some (FP.sub 1 2) :=
  rfl
theorem test_fmul :
    r3After (.fmul .r1 .r2 .r3) (sched 0x1000 0x4000 [] 1 2 0) = some (FP.mul 1 2) :=
  rfl
theorem test_ftoi : r3After (.ftoi .r2 .r3) (sched 0x1000 0x4000 [] 1 2 0) = some (FP.f2i 2) :=
  rfl
theorem test_itof : r3After (.itof .r1 .r3) (sched 0x1000 0x4000 [] 1 2 0) = some (FP.i2f 1) :=
  rfl
theorem test_frecip :
    r3After (.frecip .r2 .r3) (sched 0x1000 0x4000 [] 1 2 0) = some (FP.recip 2) :=
  rfl
theorem test_frsqrt :
    r3After (.frsqrt .r1 .r3) (sched 0x1000 0x4000 [] 1 2 0) = some (FP.rsqrt 1) :=
  rfl
theorem test_faddi :
    r3After (.faddi .r1 .r3 7) (sched 0x1000 0x4000 [] 1 2 0) = some (FP.add 1 7) :=
  rfl
theorem test_fsubi :
    r3After (.fsubi .r1 .r3 7) (sched 0x1000 0x4000 [] 1 2 0) = some (FP.sub 1 7) :=
  rfl
theorem test_fmuli :
    r3After (.fmuli .r1 .r3 7) (sched 0x1000 0x4000 [] 1 2 0) = some (FP.mul 1 7) :=
  rfl
theorem test_ifsub :
    r3After (.ifsub .r2 .r3 7) (sched 0x1000 0x4000 [] 1 2 0) = some (FP.sub 7 2) :=
  rfl

theorem test_bflt :
    exec (.bflt (.gp .r1) (.gp .r2) 0x1000 false) (sched 0x1000 0x4000 [] 1 2 0)
      = .next (if FP.lt 1 2 then (sched 0x1000 0x4000 [] 1 2 0).jump 0x2000
          else (sched 0x1000 0x4000 [] 1 2 0).jump 0x1006) := rfl

theorem test_bfge :
    exec (.bfge (.gp .r1) (.gp .r2) 0x1000 false) (sched 0x1000 0x4000 [] 1 2 0)
      = .next (if FP.ge 1 2 then (sched 0x1000 0x4000 [] 1 2 0).jump 0x2000
          else (sched 0x1000 0x4000 [] 1 2 0).jump 0x1006) := rfl

/-! Reserved encodings: a word of every reserved row, V-RS1 to V-RS21 among them. -/

/-- Whether a TASK step on INST alone enters SCHEDULER mode with TPC at the instruction and
nothing else changed. -/
def raisesSii (inst : Half) : Bool :=
  let s := task 0x4000 [inst] 1 2 3
  match step s with
  | .next t => t == s.setMode .scheduler
  | _ => false

theorem test_reserved_short :
    [0x0550, 0x9120, 0xa120, 0xb120, 0xc120, 0xd120, 0xe120, 0x9003, 0xa003, 0xb003,
      0xc003, 0xd003, 0xe003].all raisesSii = true := by
  decide

theorem test_reserved_long :
    [0xc1f0, 0xd1f0, 0xe1f0, 0xc0f3, 0xd0f3, 0xe0f3, 0x0f23, 0x1f23, 0x2f23, 0x4f23,
      0x8f23, 0x9f23, 0xaf23, 0xbf23, 0xcf23, 0xef23, 0xdf20, 0xdf03, 0x016f, 0x712f,
      0x812f, 0x912f, 0xa12f, 0xb12f, 0xc12f, 0x5ff3, 0x5fff, 0xf12f,
        0xf1f3].all raisesSii = true := by
  decide

/-- V-RS21. -/
theorem test_reserved_in_scheduler :
    faultOf (step (sched 0x1000 0x4000 [0x9120] 1 2 0)) = some (.exceptionInScheduler .sii) := by
  decide

/-- V-LS9. -/
theorem test_misaligned :
    faultOf (step (sched 0x1000 0x4000 [0xf423] 0 0x2002 0)) = some (.misaligned 0x2002) := by
  decide

/-- V-PA8, the other policy. -/
theorem test_misaligned_as_they_lie :
    after (fun t => t.gprs.r3)
        { sched 0x1000 0x4000 [0xf423] 0 0x2002 0 with
          cfg := { Config.default with misaligned := .asTheyLie } }
      = some 0x5678fffe := by
  decide

/-- V-PA13 with STH, its STW being misaligned: the second step fetches what the first stored. -/
theorem test_stale_fetch :
    (match step (sched 0x1000 0x4000 [0xf623] 0 0x1002 0x1111) with
      | .next t => faultOf (step t)
      | _ => none) = some (.staleFetch 0x1002) := by
  decide

/-- V-PA1. -/
theorem test_pc_read_bias :
    after (fun t => t.gprs.r4)
        { sched 0x1000 0x4000 [0x1004] 0 0 0 with
          cfg := { Config.default with pcReadBias := 2 } } = some 0x1002 := by
  decide

/-- V-PA3's instruction with bias 2, under both bases: 0x1000 - 2 as V-PA3 says, 0x1002 - 2 as D4
says; at the default bias both are V-PA3's. -/
theorem test_branch_base :
    (∀ base : BranchBase, base = .asRead ∨ base = .ownAddress →
      after (fun t => pcAddr t.spc)
          { sched 0x1000 0x4000 [0x100f, 0xffff, 0xffff] 0 0 0 with
            cfg := { Config.default with branchBase := base, pcReadBias := 2 } }
          = some (if base = .asRead then 0x1000 else 0xffe)
        ∧ after (fun t => pcAddr t.spc)
          { sched 0x1000 0x4000 [0x100f, 0xffff, 0xffff] 0 0 0 with
            cfg := { Config.default with branchBase := base } } = some 0xffe) := by
  rintro _ (rfl | rfl) <;> decide

/-- V-PA6. -/
theorem test_big_endian :
    (match exec (.ldwA (.gp .r2) (.gp .r3))
        { sched 0x1000 0x4000 [] 0 0x2004 0 with
          cfg := { Config.default with byteOrder := .big } } with
      | .next t => some t.gprs.r3
      | _ => none) = some 0x78563412 := by
  decide

/-- V-PA5. -/
theorem test_saturating_shift :
    shiftRightSigned .saturate 0x80000000 0x40 = 0xffffffff
      ∧ shiftRightSigned .lowFive 0x80000000 0x40 = 0x80000000 := by
  decide


/-! ## Witnesses: for every statement with hypotheses, a state and operands that meet them -/

/-- Plain settings with MMU rules: TASK may not touch 0x2000 .. 0x2fff, nor fetch from 0x4004 or
0x5000; SCHEDULER may not read or write 0x3000 .. 0x3fff; both see page 0x6000 at 0x7000. -/
def guarded : Config :=
  { Config.default with
    mmu := .rules
      [⟨.task, .read, 0x2000, 0x2fff, none⟩, ⟨.task, .write, 0x2000, 0x2fff, none⟩,
        ⟨.task, .fetch, 0x4004, 0x4005, none⟩, ⟨.task, .fetch, 0x5000, 0x5fff, none⟩,
        ⟨.scheduler, .fetch, 0x5000, 0x5fff, none⟩,
        ⟨.scheduler, .read, 0x3000, 0x3fff, none⟩, ⟨.scheduler, .write, 0x3000, 0x3fff, none⟩,
        ⟨.scheduler, .read, 0x6000, 0x6fff, some 0x7000⟩,
        ⟨.task, .write, 0x6000, 0x6fff, some 0x7000⟩] }

/-- ADDI R3, R1, 0x12345678 at the program counter of TASK mode, under the MMU rules, with two
stores waiting. -/
def guardedTask : State :=
  { task 0x4000 [0x41f3, 0x5678, 0x1234] 1 2 3 with
    cfg := guarded
    writeQueue := [[(0x8000, 1)], [(0x8002, 2), (0x8003, 3)]]
    stale := [0x8000, 0x8002, 0x8003] }

/-- STU at the program counter of SCHEDULER mode, under the MMU rules, with a store waiting. -/
def guardedSched : State :=
  { sched 0x1000 0x4000 [0x0330] 1 2 3 with
    cfg := guarded
    writeQueue := [[(0x8000, 1)]]
    stale := [0x8000] }

theorem test_witness_DecodeOfEncode :
    (Instr.xor .pc (.gp .r1) .pc).wf = true ∧ (Instr.bbs .xe .pc 0 false).wf = true
      ∧ (Instr.siiXorHole .x4).wf = true ∧ (Instr.siiXorHole .xc).wf = true
      ∧ (Instr.siiCOnly .xe).wf = true ∧ (Instr.siiLsADf .x7 .xf).wf = true := by
  decide

theorem test_witness_EncodeOfDecode :
    (decodeWord 0xffff 1).isReserved = false ∧ (decodeWord 0xffff 1).length = 6
      ∧ (decodeWord 0x010f 1).isReserved = false ∧ (decodeWord 0x010f 1).length = 6 := by
  decide

/-- INST 0xf7ee is short and 0xf800, 0x0f00, 0x00f0 and 0x000f are long. -/
theorem test_witness_LengthFromInst :
    instLength 0xf7ee = 2 ∧ instLength 0xf800 = 6 ∧ instLength 0x0f00 = 6 ∧ instLength 0x00f0 = 6
      ∧ instLength 0x000f = 6 ∧ (decodeWord 0xf7ee 0).length = 2
      ∧ (decodeWord 0xf800 0).length = 6 := by
  decide

theorem test_witness_ShiftAmountLaw :
    (31 : Word).toNat < 32 ∧ 32 ≤ (32 : Word).toNat ∧ shiftAmount .lowFive 31 = 31
      ∧ shiftAmount .lowFive 32 = 0 ∧ shiftRight .saturate 0xffffffff 32 = 0 := by
  decide

/-- Both modes occur, with TPC as source and as destination. -/
theorem test_witness_XmovBothModes :
    guardedTask.mode = .task ∧ guardedSched.mode = .scheduler
      ∧ guardedTask.readTpc = 0x4000 ∧ guardedSched.readTpc = 0x4000 := by
  decide

theorem test_witness_ReadIndexZero :
    guardedTask.cfg.pcReadBias = 0 ∧ guardedTask.readX .pc = 0x4000
      ∧ guardedSched.readX .pc = 0x1000 := by
  decide

/-- Both sides of each clause of BranchTarget: a biased machine under either base, and bias 0. -/
theorem test_witness_BranchTarget :
    (∃ s : State, s.cfg.branchBase = .asRead ∧ s.cfg.pcReadBias = 2)
      ∧ (∃ s : State, s.cfg.branchBase = .ownAddress ∧ s.cfg.pcReadBias = 2)
      ∧ ∃ s : State, s.cfg.branchBase = .asRead ∧ s.cfg.pcReadBias = 0 :=
  ⟨⟨{ State.reset with cfg := { Config.default with pcReadBias := 2 } }, rfl, rfl⟩,
    ⟨{ State.reset with cfg := { Config.default with
        pcReadBias := 2, branchBase := .ownAddress } }, rfl, rfl⟩,
    ⟨State.reset, rfl, rfl⟩⟩

/-- FILL, BREAK and SYSCALL, and STU, from either mode. -/
theorem test_witness_EnterScheduler :
    (∀ i, i = Instr.fill ∨ i = .brk ∨ i = .syscall ∨ i = .stu →
      (∃ t, exec i guardedTask = .next t) ∧ ∃ t, exec i guardedSched = .next t) := by
  rintro i (rfl | rfl | rfl | rfl) <;> exact ⟨⟨_, rfl⟩, ⟨_, rfl⟩⟩

theorem test_witness_StuReturns :
    guardedSched.mode = .scheduler ∧ guardedTask.mode = .task := by
  decide

/-- The queue that FENCE empties is not empty, and a waiting byte is stale. -/
theorem test_witness_FencesDrainQueue :
    guardedTask.writeQueue ≠ [] ∧ guardedTask.stale ≠ []
      ∧ Memory.read guardedTask.mem 0x8000 ≠ guardedTask.readByte 0x8000 := by
  decide

theorem test_witness_WoiSpins :
    guardedSched.cfg.pcReadBias = 0 ∧ guardedTask.cfg.pcReadBias = 0 := by
  decide

/-- Every width and direction at the top of the address space and at address 0, through the
identity and through a rule that moves the page. -/
theorem test_witness_accessible :
    Accessible guardedTask 0xffffffff .byte .read 0xffffffff
      ∧ Accessible guardedTask 0xfffffffe .half .read 0xfffffffe
      ∧ Accessible guardedTask 0xfffffffc .word .read 0xfffffffc
      ∧ Accessible guardedTask 0 .word .read 0
      ∧ Accessible guardedSched 0xffffffff .byte .write 0xffffffff
      ∧ Accessible guardedSched 0xfffffffe .half .write 0xfffffffe
      ∧ Accessible guardedSched 0xfffffffc .word .write 0xfffffffc
      ∧ Accessible guardedSched 0x6ffc .word .read 0x7ffc
      ∧ Accessible guardedTask 0x6000 .byte .write 0x7000
      ∧ Accessible { guardedTask with cfg := { guarded with misaligned := .asTheyLie } } 0xffffffff
          .word .read 0xffffffff := by
  refine ⟨?_, ?_, ?_, ?_, ?_, ?_, ?_, ?_, ?_, .inr rfl, by decide⟩ <;>
    exact ⟨.inl (by decide), by decide⟩

/-- The register forms reach such addresses: R2 of form A, and R2 + VALUE of form D that wraps. -/
theorem test_witness_LoadFormA :
    Accessible guardedTask (guardedTask.readX (.gp .r2)) .half .read 2
      ∧ Accessible guardedTask (guardedTask.readX (.gp .r2)) .byte .read 2
      ∧ Accessible guardedTask (guardedTask.readX .pc) .word .read 0x4000 := by
  refine ⟨?_, ?_, ?_⟩ <;> exact ⟨.inl (by decide), by decide⟩

theorem test_witness_LoadFormD :
    Accessible guardedSched (guardedSched.readX (.gp .r1) + 0xffffffff) .word .read 0
      ∧ Accessible guardedSched (guardedSched.readX (.gp .r1) + 1) .half .read 2
      ∧ Accessible guardedSched (guardedSched.readX (.gp .r1) + 2) .byte .read 3 := by
  refine ⟨?_, ?_, ?_⟩ <;> exact ⟨.inl (by decide), by decide⟩

/-- Both ends of the address space through VALUE alone. -/
theorem test_witness_LoadFormC :
    Accessible guardedTask 0xffffffff .byte .read 0xffffffff
      ∧ Accessible guardedTask 0xfffffffe .half .read 0xfffffffe
      ∧ Accessible guardedSched 0 .word .read 0 := by
  refine ⟨?_, ?_, ?_⟩ <;> exact ⟨.inl (by decide), by decide⟩

/-- Either mode, through VALUE alone and through R1 + VALUE. -/
theorem test_witness_LoadIntoTpc :
    Accessible guardedTask 0xffffffff .byte .read 0xffffffff
      ∧ Accessible guardedSched 0xfffffffe .half .read 0xfffffffe
      ∧ Accessible guardedTask 0xfffffffc .word .read 0xfffffffc
      ∧ Accessible guardedSched (guardedSched.readX (.gp .r1) + 0xfffffffe) .byte .read 0xffffffff
      ∧ Accessible guardedTask (guardedTask.readX (.gp .r1) + 0xffffffff) .half .read 0
      ∧ Accessible guardedSched (guardedSched.readX (.gp .r1) + 3) .word .read 4 := by
  refine ⟨?_, ?_, ?_, ?_, ?_, ?_⟩ <;> exact ⟨.inl (by decide), by decide⟩

theorem test_witness_StoreFormA :
    Accessible guardedTask (guardedTask.readX (.gp .r2)) .half .write 2
      ∧ Accessible guardedTask (guardedTask.readX (.gp .r2)) .byte .write 2
      ∧ Accessible guardedTask (guardedTask.readX .pc) .word .write 0x4000 := by
  refine ⟨?_, ?_, ?_⟩ <;> exact ⟨.inl (by decide), by decide⟩

theorem test_witness_StoreFormD :
    Accessible guardedSched (guardedSched.readX (.gp .r1) + 0xffffffff) .word .write 0
      ∧ Accessible guardedSched (guardedSched.readX (.gp .r1) + 1) .half .write 2
      ∧ Accessible guardedSched (guardedSched.readX (.gp .r1) + 2) .byte .write 3 := by
  refine ⟨?_, ?_, ?_⟩ <;> exact ⟨.inl (by decide), by decide⟩

/-- Both ends of the address space through VALUE alone. -/
theorem test_witness_StoreFormC :
    Accessible guardedTask 0xffffffff .byte .write 0xffffffff
      ∧ Accessible guardedTask 0xfffffffe .half .write 0xfffffffe
      ∧ Accessible guardedSched 0 .word .write 0 := by
  refine ⟨?_, ?_, ?_⟩ <;> exact ⟨.inl (by decide), by decide⟩

/-- Either mode, through VALUE alone and through R1 + VALUE. -/
theorem test_witness_StoreOfTpc :
    Accessible guardedTask 0xffffffff .byte .write 0xffffffff
      ∧ Accessible guardedSched 0xfffffffe .half .write 0xfffffffe
      ∧ Accessible guardedTask 0xfffffffc .word .write 0xfffffffc
      ∧ Accessible guardedSched (guardedSched.readX (.gp .r1) + 0xfffffffe) .byte .write 0xffffffff
      ∧ Accessible guardedTask (guardedTask.readX (.gp .r1) + 0xffffffff) .half .write 0
      ∧ Accessible guardedSched (guardedSched.readX (.gp .r1) + 3) .word .write 4 := by
  refine ⟨?_, ?_, ?_, ?_, ?_, ?_⟩ <;> exact ⟨.inl (by decide), by decide⟩

/-- The first and the last refused address of each mode, read and written. -/
theorem test_witness_RefusedDataAccess :
    dataAccess (.ldubC (.gp .r3) 0x2000) guardedTask = some (0x2000, .byte, .read)
      ∧ Refused guardedTask 0x2000 .byte .read
      ∧ dataAccess (.stwC (.gp .r3) 0x2ffc) guardedTask = some (0x2ffc, .word, .write)
      ∧ Refused guardedTask 0x2ffc .word .write
      ∧ dataAccess (.lduhC (.gp .r3) 0x3000) guardedSched = some (0x3000, .half, .read)
      ∧ Refused guardedSched 0x3000 .half .read
      ∧ dataAccess (.stbC (.gp .r3) 0x3fff) guardedSched = some (0x3fff, .byte, .write)
      ∧ Refused guardedSched 0x3fff .byte .write := by
  refine ⟨rfl, ?_, rfl, ?_, rfl, ?_, rfl, ?_⟩ <;> exact ⟨.inl (by decide), by decide⟩

theorem test_witness_MisalignedAccess :
    dataAccess (.ldwC (.gp .r3) 0xfffffffd) guardedTask = some (0xfffffffd, .word, .read)
      ∧ dataAccess (.sthC (.gp .r3) 1) guardedTask = some (1, .half, .write)
      ∧ dataAccess (.stbC (.gp .r3) 1) guardedTask = some (1, .byte, .write)
      ∧ guardedTask.cfg.misaligned = .modelFault := by
  decide

theorem test_witness_OwnStoresAreSeen :
    State.reset.cfg.byteOrder = .little ∧ State.reset.cfg.mmu = .identity
      ∧ (0xfffffffc : Word).toNat % 4 = 0
      ∧ ∃ t, exec (.stwC (.gp .r3) 0xfffffffc) State.reset = .next t :=
  ⟨rfl, rfl, by decide, _, rfl⟩

theorem test_witness_ReservedRaisesSii :
    (Instr.siiXorHole .x4).isReserved = true ∧ (Instr.siiCOnly .xe).isReserved = true
      ∧ guardedTask.mode = .task ∧ guardedSched.mode = .scheduler := by
  decide

theorem test_witness_InterruptTaken :
    (interrupting guardedTask).mode = .task ∧ (interrupting guardedTask).irq = true :: []
      ∧ guardedSched.mode = .scheduler := by
  decide

/-- The instruction at `guardedTask`'s program counter. -/
def atTask : Instr := .addi (.gp .r1) (.gp .r3) 0x12345678

/-- A halfword number of `atTask`. -/
theorem fetches_atTask {k : Nat} {h : Half} (e : fetches atTask k h) :
    (k = 0 ∧ h = 0x41f3) ∨ (k = 1 ∧ h = 0x5678) ∨ (k = 2 ∧ h = 0x1234) := by
  match k, e.1 with
  | 0, e => exact .inl ⟨rfl, (Option.some.inj e).symm⟩
  | 1, e => exact .inr (.inl ⟨rfl, (Option.some.inj e).symm⟩)
  | 2, e => exact .inr (.inr ⟨rfl, (Option.some.inj e).symm⟩)

/-- With plain settings all three halfwords can be fetched, FIELD_I included. -/
theorem test_witness_StepRunsInstruction :
    let s := { guardedTask with cfg := .default }
    atTask.wf = true ∧ s.interrupted = false
      ∧ ∀ k h, fetches atTask k h → Fetchable s.boundary (s.halfAddr k) h := by
  refine ⟨by decide, by decide, fun k h e => ?_⟩
  obtain ⟨rfl, rfl⟩ | ⟨rfl, rfl⟩ | ⟨rfl, rfl⟩ := fetches_atTask e
  · exact ⟨0x4000, by decide, by decide, .inr (by decide)⟩
  · exact ⟨0x4002, by decide, by decide, .inr (by decide)⟩
  · exact ⟨0x4004, by decide, by decide, .inr (by decide)⟩

/-- Under the MMU rules the first two halfwords can be fetched and the last is refused. -/
theorem test_witness_FetchStops_last :
    fetches atTask 2 0x1234
      ∧ (∀ j g, j < 2 → fetches atTask j g →
          Fetchable guardedTask.boundary (guardedTask.halfAddr j) g)
      ∧ guardedTask.boundary.translate (guardedTask.halfAddr 2) .half .fetch = .refused
      ∧ guardedTask.interrupted = false := by
  refine ⟨⟨rfl, by decide⟩, fun j g l e => ?_, by decide, by decide⟩
  obtain ⟨rfl, rfl⟩ | ⟨rfl, rfl⟩ | ⟨rfl, rfl⟩ := fetches_atTask e
  · exact ⟨0x4000, by decide, by decide, .inr (by decide)⟩
  · exact ⟨0x4002, by decide, by decide, .inr (by decide)⟩
  · omega

/-- INST itself is refused, in either mode. -/
theorem test_witness_FetchStops_first :
    let s := { guardedTask with tpc := pcOf 0x5000 }
    let u := { guardedSched with spc := pcOf 0x5000 }
    fetches atTask 0 0x41f3 ∧ s.boundary.translate (s.halfAddr 0) .half .fetch = .refused
      ∧ s.mode = .task ∧ u.boundary.translate (u.halfAddr 0) .half .fetch = .refused
      ∧ u.mode = .scheduler ∧ s.interrupted = false ∧ u.interrupted = false :=
  ⟨⟨rfl, by decide⟩, by decide, by decide, by decide, by decide, by decide, by decide⟩

/-- The low half of FIELD_I is stale, by its second byte alone. -/
theorem test_witness_FetchStops_stale :
    let s := { guardedTask with cfg := .default, stale := [0x4003] }
    fetches atTask 1 0x5678 ∧ Fetchable s.boundary (s.halfAddr 0) 0x41f3
      ∧ s.boundary.translate (s.halfAddr 1) .half .fetch = .permitted 0x4002
      ∧ s.cfg.ifetchCoherent = false ∧ (0x4002 + 1 : Word).toNat ∈ s.stale := by
  refine ⟨⟨rfl, by decide⟩, ⟨0x4000, by decide, by decide, .inr (by decide)⟩, by decide,
    by decide, by decide⟩

theorem test_witness_TranslationFollowsMode :
    let l := [⟨.scheduler, .read, 0, 0xffffffff, none⟩, ⟨.task, .read, 0x10, 0x1f, none⟩]
    let s := { guardedTask with cfg := { guarded with mmu := .rules l } }
    let t := { s with cfg := { guarded with mmu := .rules (l.filter fun r => r.mode = s.mode) } }
    s.cfg.mmu = .rules l ∧ t.mode = s.mode
      ∧ t.cfg.mmu = .rules (l.filter fun r => r.mode = s.mode) ∧ t.cfg.mmu ≠ s.cfg.mmu := by
  decide

/-- No rule is of the mode that executes. -/
theorem test_witness_TranslationFollowsMode_none :
    ∀ r ∈ ([⟨.scheduler, .read, 0, 0xffffffff, none⟩] : List MmuRule), r.mode ≠ guardedTask.mode := by
  decide

/-- A well-formed state with waiting stores whose step is a store. -/
theorem test_witness_StepKeepsForm :
    let s := { task 0x4000 [0xf723] 0x20 0x2004 3 with
                writeQueue := [[(0x8000, 1)]], stale := [0x8000], drains := [0] }
    s.wf = true ∧ ∃ t, step s = .next t :=
  ⟨by decide, _, rfl⟩

theorem test_witness_TaskCannotTouchSpc :
    let s := { task 0x4000 [0x8020] 1 0x5000 3 with cfg := guarded }
    s.mode = .task ∧ ∃ t, step s = .next t :=
  ⟨rfl, _, rfl⟩

/-- XMOV and LIT write TPC in SCHEDULER mode; ADD reads nothing of TPC. -/
theorem test_witness_TaskCannotTouchSpc_scheduler :
    guardedSched.mode = .scheduler
      ∧ (∃ t, exec (.lit .pc 0x6000) guardedSched = .next t ∧ t.tpc ≠ guardedSched.tpc)
      ∧ readsTpcByName (.add (.gp .r1) (.gp .r2) (.gp .r3)) = false
      ∧ ∃ t, exec (.add (.gp .r1) (.gp .r2) (.gp .r3)) guardedSched = .next t :=
  ⟨rfl, ⟨_, rfl, by decide⟩, rfl, _, rfl⟩

/-- The five ways into SCHEDULER mode and the one out of it. -/
theorem test_witness_ModeChanges :
    after (fun t => t.mode) (interrupting guardedTask) = some .scheduler
      ∧ after (fun t => t.mode) { task 0x5000 [0x1111] 0 0 0 with cfg := guarded } = some .scheduler
      ∧ after (fun t => t.mode) (task 0x4000 [0x0220] 0 0 0) = some .scheduler
      ∧ after (fun t => t.mode) (task 0x4000 [0x9120] 0 0 0) = some .scheduler
      ∧ after (fun t => t.mode) { task 0x4000 [0xf423] 0 0x2004 0 with cfg := guarded }
          = some .scheduler
      ∧ after (fun t => t.mode) guardedSched = some .task := by
  decide

theorem test_witness_OnlyLoadsAndStoresReachMemory :
    dataAccess atTask guardedTask = none ∧ atTask ≠ .fence ∧ atTask ≠ .wfence
      ∧ (∃ t, exec .fence guardedTask = .next t) ∧ ∃ t, exec .wfence guardedTask = .next t :=
  ⟨rfl, by decide, by decide, ⟨_, rfl⟩, _, rfl⟩

/-- Each clause: a general register, the current program counter, and TPC beside SPC's advance. -/
theorem test_witness_OneRegisterWritten :
    (∃ t, exec atTask guardedTask = .next t ∧ t.gprs ≠ guardedTask.gprs)
      ∧ (∃ t, exec (.ori (.gp .r1) .pc 0x6000) guardedSched = .next t ∧ t.gprs = guardedSched.gprs
        ∧ t.spc ≠ guardedSched.spc ∧ t.tpc = guardedSched.tpc)
      ∧ (∃ t, exec (.lit .pc 0x6000) guardedSched = .next t ∧ t.gprs = guardedSched.gprs
        ∧ t.tpc ≠ guardedSched.tpc
        ∧ pcAddr t.spc = guardedSched.curPc + BitVec.ofNat 32 (Instr.lit .pc 0x6000).length) :=
  ⟨⟨_, rfl, by decide⟩, ⟨_, rfl, rfl, by decide, rfl⟩, ⟨_, rfl, rfl, by decide, rfl⟩⟩

/-- Each clause at the two values of FIELD_B where they meet, 7 and 8. -/
theorem test_witness_LoadStoreReserved :
    Nib.x7.val < 8 ∧ 8 ≤ Nib.x8.val ∧ (Nib.x0 ≠ .xf)
      ∧ (decodeWord (packInst .xf .x7 .xf .x0) 0).isReserved = true
      ∧ (decodeWord (packInst .xf .x7 .x0 .xf) 0).isReserved = true
      ∧ (decodeWord (packInst .xf .x7 .x0 .x0) 0).isReserved = false
      ∧ (decodeWord (packInst .xf .x8 .xf .xf) 0).isReserved = false :=
  ⟨by decide, by decide, by decide, by decide, by decide, by decide, by decide⟩

/-- An instruction with FIELD_D a general register, and one that writes TPC by name. -/
theorem test_witness_SequentialAdvance :
    (∃ t, exec atTask guardedTask = .next t ∧ t.mode = guardedTask.mode)
      ∧ atTask.fields.2.2.2 ≠ .x0 ∧ atTask.fields.2.2.2 ≠ .xf
      ∧ (∃ t, exec (.lit .pc 0x6000) guardedSched = .next t)
      ∧ guardedSched.mode = .scheduler ∧ writesTpcByName (.lit .pc 0x6000) = true :=
  ⟨⟨_, rfl, rfl⟩, by decide, by decide, ⟨_, rfl⟩, rfl, rfl⟩

theorem test_witness_ParametersAreFixed :
    ∃ t, step { guardedSched with irq := [false, true], drains := [0, 1] } = .next t :=
  ⟨_, rfl⟩

/-- The waiting stores of one are performed in the other. -/
theorem test_witness_DrainsAreInvisible :
    (∃ l, guardedTask.cfg.mmu = .rules l)
      ∧ SameForCore guardedTask { guardedTask.drain 1 with drains := [0, 0] }
      ∧ guardedTask.mem ≠ (guardedTask.drain 1).mem :=
  ⟨⟨_, rfl⟩, ⟨rfl, rfl, rfl, rfl, rfl, rfl, rfl, rfl⟩, by decide⟩

/-- Both ends of a run, under MMU rules. -/
theorem test_witness_EndOfRunStays :
    (∃ l, guarded.mmu = .rules l) ∧ guarded.pcReadBias = 0
      ∧ endOfRun { sched 0x1000 0x4000 [0x1000] 1 2 3 with cfg := guarded } = true
      ∧ endOfRun { sched 0x1000 0x4000 [0x100f, 0x0001, 0x0000] 1 2 3 with cfg := guarded }
          = true :=
  ⟨⟨_, rfl⟩, rfl, by decide, by decide⟩

/-! ## The host's two questions, on one word each -/

theorem test_decodeTableWord :
    decodeTableWord 48 0x1234567841f3 = some atTask ∧ decodeTableWord 16 0x0dd0 = some .fence
      ∧ decodeTableWord 16 0x41f3 = some (.addi (.gp .r1) (.gp .r3) 0) := by
  decide

theorem test_withFetchWord :
    after (fun t => (t.gprs.r3, pcAddr t.spc)) (State.reset.withFetchWord 48 0x1234567841f3)
      = some (0x12345678, 6) := by
  decide

end Sys2Proof.Tests
end

section
/-!
PROOFS. The family 00_scope.md: the read of index 0 (R12), the sequential advance (R14) and the
parameters of the machine (R6). The two statements over every instruction go through the case list
`exec_next`, and the one over every step through `step_next`.
-/

namespace Sys2Proof.Machine

/-! ## The sequential advance -/

/-- The two lengths of an instruction (R92). -/
theorem lenWord_eq_two_or_six (i : Instr) : lenWord i = 2 ∨ lenWord i = 6 := by
  have hl : i.length = 2 ∨ i.length = 6 := by
    unfold Instr.length
    split <;> simp
  rcases hl with hl | hl <;> simp [lenWord, hl]

theorem evenPart_curPc_lenWord (i : Instr) (s : State) :
    evenPart (s.curPc + lenWord i) = s.curPc + lenWord i := by
  rcases lenWord_eq_two_or_six i with hl | hl <;> rw [hl]
  · exact evenPart_curPc_two s
  · exact evenPart_curPc_six s

/-- The sequential advance by the length of an instruction (R14, R112). -/
theorem State.curPc_advance_lenWord (i : Instr) (s : State) :
    (s.advance (lenWord i)).curPc = s.curPc + lenWord i :=
  (State.curPc_jump _ s).trans (evenPart_curPc_lenWord i s)

/-- The system instructions with an arm of their own in `ExecNext` have FIELD_D = 0, and none
writes TPC by name (R170 to R176, R39). -/
theorem system_fieldD_and_writesTpcByName {i : Instr}
    (hi : i = .fill ∨ i = .brk ∨ i = .syscall ∨ i = .stu ∨ i = .fence ∨ i = .wfence) :
    i.fields.2.2.2 = .x0 ∧ writesTpcByName i = false := by
  rcases hi with rfl | rfl | rfl | rfl | rfl | rfl <;> exact ⟨rfl, rfl⟩

/-- Where FIELD_D names no program counter, the one next state that does not advance is the
exception's, and that one changes the mode. -/
theorem ExecNext.curPc_of_fieldD {i : Instr} {s t : State} (h : ExecNext i s t)
    (h0 : i.fields.2.2.2 ≠ .x0) (hf : i.fields.2.2.2 ≠ .xf) (hm : t.mode = s.mode) :
    t.curPc = s.curPc + lenWord i := by
  cases h with
  | writes d v hd hi =>
    cases d with
    | pc => exact absurd hd h0
    | gp g => exact State.curPc_advance_lenWord i (s.setGpr g v)
  | writesTpc v hi hd => exact absurd hd (not_or.2 ⟨h0, hf⟩)
  | jumps _ hd | goesOn hd => exact absurd hd hf
  | stores ea n p v ha hp hi => exact State.curPc_advance_lenWord i (s.storeBytes p n v)
  | enters hi | returns hi | fences hi | flushes hi =>
    exact absurd (system_fieldD_and_writesTpcByName (by tauto)).1 h0
  | raises ht hi => simp [ht] at hm

/-- In SCHEDULER mode no exception is taken, so an instruction that writes TPC by name completes,
and SPC advances beside the write (R13, R14). -/
theorem ExecNext.curPc_of_writesTpc {i : Instr} {s t : State} (h : ExecNext i s t)
    (hs : s.mode = .scheduler) (hw : writesTpcByName i = true) :
    t.curPc = s.curPc + lenWord i := by
  cases h with
  | writesTpc v hi hd =>
    obtain ⟨-, -, hadv, -⟩ := WritesTpc.writeTpc s (lenWord i) v (evenPart_curPc_lenWord i s)
    exact hadv hs
  | raises ht hi => simp [hs] at ht
  | writes _ _ _ hi | jumps _ _ hi | goesOn _ hi | stores _ _ _ _ _ _ hi => simp [hi] at hw
  | enters hi | returns hi | fences hi | flushes hi =>
    have hn : writesTpcByName i = false := (system_fieldD_and_writesTpcByName (by tauto)).2
    simp [hn] at hw

/-! ## The parameters and the environment's inputs -/

/-- An instruction neither changes the parameters nor uses up an input of the environment. -/
theorem ExecNext.keepsEnvironment {i : Instr} {s t : State} (h : ExecNext i s t) :
    KeepsEnvironment s t := by
  unfold KeepsEnvironment
  cases h with
  | writes d v hd hi =>
    obtain ⟨-, -, -, -, henv⟩ := s.writeX_keeps (lenWord i) d v
    exact henv
  | writesTpc v hi hd =>
    obtain ⟨-, -, -, -, -, henv⟩ := s.writeTpc_keeps (lenWord i) v
    exact henv
  | jumps | goesOn | stores | enters | returns | fences | flushes | raises => simp

/-- Only the boundary uses up the environment's inputs: what follows it in the step, be it the
interrupt, the instruction or the exception of its fetch, keeps them. -/
theorem step_keepsEnvironment_of_boundary {s t : State} (h : step s = .next t) :
    KeepsEnvironment s.boundary t := by
  rcases step_next h with ⟨-, rfl⟩ | ⟨-, i, -, he⟩ | ⟨-, -, -, rfl⟩
  · exact ⟨rfl, rfl, rfl⟩
  · exact (exec_next he).keepsEnvironment
  · exact ⟨rfl, rfl, rfl⟩

/-! ## The obligations -/

/-- Settles O56, by the cases of `ExecNext`. -/
theorem sequentialAdvance : Obligations.SequentialAdvance := by
  intro i s t h
  have hn := exec_next h
  exact ⟨hn.curPc_of_fieldD, hn.curPc_of_writesTpc⟩

/-- Settles O57: the boundary takes the two heads, and the rest of the step keeps the lists. -/
theorem parametersAreFixed : Obligations.ParametersAreFixed := by
  intro s t h
  obtain ⟨hirq, hdrains, hcfg⟩ := step_keepsEnvironment_of_boundary h
  exact ⟨hcfg, hirq, hdrains⟩

/-- Settles O14, from the laws of a read of index 0. -/
theorem readIndexZero : Obligations.ReadIndexZero := by
  intro s g
  refine ⟨s.readX_pc, State.readX_pc_of_noBias, s.readX_gp g, ?_⟩
  cases hm : s.mode <;> simp [State.curPc, hm]

end Sys2Proof.Machine
end

section
/-!
PROOFS. The family 10_state.md: bit 0 of the program counters (R35), the state after reset (R48),
the one register that an instruction writes (R34) and the separation of the two program counters
(R39). What an instruction may write is read off the case list `exec_next`. What it may depend on is
not in that list: `exec_withPc` says that an instruction commutes with replacing the program counter
of the mode that is not running, one lemma for each shared shape of the meanings.
-/

namespace Sys2Proof.Machine

/-! ## Bit 0 of a program counter -/

@[simp] theorem evenPart_bit0 (v : Word) : (evenPart v).getLsbD 0 = false := by
  rw [← pcAddr_pcOf_eq, pcAddr_bit0]

theorem evenPart_getLsbD_of_pos (v : Word) {k : Nat} (h1 : 1 ≤ k) (h32 : k < 32) :
    (evenPart v).getLsbD k = v.getLsbD k := by
  have hn : k - 1 < 31 := by omega
  have hk : 1 + (k - 1) = k := by omega
  rw [← pcAddr_pcOf_eq, pcAddr_getLsbD]
  simp [pcOf, hn, hk, Nat.pos_of_ne_zero (Nat.one_le_iff_ne_zero.1 h1)]

/-! ## What an instruction writes -/

/-- The program counter of the mode that is not running changes by no instruction, but for TPC by
those that write it by name in SCHEDULER mode (R36, R39). -/
theorem ExecNext.keepsOtherPc {i : Instr} {s t : State} (h : ExecNext i s t)
    (hw : s.mode = .scheduler → writesTpcByName i = false) : KeepsOtherPc s t := by
  unfold KeepsOtherPc
  cases h with
  | writes d v => cases d <;> simp +contextual [State.writeX]
  | writesTpc v hi =>
    have hs : s.mode ≠ .scheduler := fun hs => by simp [hw hs] at hi
    obtain ⟨-, hspc, -⟩ := WritesTpc.writeTpc s (lenWord i) v (evenPart_curPc_lenWord i s)
    exact ⟨hspc, fun e => absurd e hs⟩
  | jumps | goesOn | stores | enters | returns | fences | flushes | raises =>
    simp +contextual

/-- An instruction sets one general register and advances, or it sets none (R34). -/
theorem ExecNext.gprs_eq_or_setGpr_advance {i : Instr} {s t : State} (h : ExecNext i s t) :
    t.gprs = s.gprs ∨ ∃ d v, t = (s.setGpr d v).advance (lenWord i) := by
  cases h with
  | writes d v =>
    cases d with
    | pc => exact .inl (State.jump_gprs v s)
    | gp g => exact .inr ⟨g, v, rfl⟩
  | writesTpc v =>
    obtain ⟨hg, -⟩ := s.writeTpc_keeps (lenWord i) v
    exact .inl hg
  | jumps | goesOn | stores | enters | returns | fences | flushes | raises => simp

/-- SCHEDULER mode is left by STU alone (R41, R173). -/
theorem ExecNext.mode_of_scheduler {i : Instr} {s t : State} (h : ExecNext i s t)
    (hs : s.mode = .scheduler) (hi : i ≠ .stu) : t.mode = .scheduler := by
  cases h with
  | writes d v =>
    obtain ⟨hm, -⟩ := s.writeX_keeps (lenWord i) d v
    exact hm.trans hs
  | writesTpc v =>
    obtain ⟨-, hm, -⟩ := s.writeTpc_keeps (lenWord i) v
    exact hm.trans hs
  | returns h => exact absurd h hi
  | jumps | goesOn | stores | enters | fences | flushes | raises => simp [hs]

/-- In SCHEDULER mode SPC advances beside a write of TPC by name (R13, R14). -/
theorem ExecNext.spc_of_writesTpc {i : Instr} {s t : State} (h : ExecNext i s t)
    (hs : s.mode = .scheduler) (hw : writesTpcByName i = true) :
    pcAddr t.spc = s.curPc + lenWord i := by
  have hm : t.mode = .scheduler := h.mode_of_scheduler hs (by rintro rfl; cases hw)
  rw [← h.curPc_of_writesTpc hs hw, State.curPc, hm]

/-- In TASK mode a step writes SPC neither by an instruction nor by an interrupt or an exception
(R39). -/
theorem step_spc_of_task {s t : State} (hm : s.mode = .task) (h : step s = .next t) :
    t.spc = s.spc := by
  rcases step_next h with ⟨-, rfl⟩ | ⟨-, i, -, he⟩ | ⟨-, -, -, rfl⟩
  · rfl
  · obtain ⟨hspc, -⟩ := (exec_next he).keepsOtherPc fun hs => by simp [hm] at hs
    exact hspc hm
  · rfl

/-! ## Replacing a program counter -/

/-- The state with the program counter of mode `m` replaced. -/
def State.withPc (m : Mode) (p : PcBits) (s : State) : State :=
  { s with
    tpc := match m with
      | .task => p
      | .scheduler => s.tpc
    spc := match m with
      | .task => s.spc
      | .scheduler => p }

theorem State.withPc_task (p : PcBits) (s : State) : s.withPc .task p = { s with tpc := p } := rfl
theorem State.withPc_scheduler (p : PcBits) (s : State) :
    s.withPc .scheduler p = { s with spc := p } := rfl

@[simp] theorem State.withPc_mode (m : Mode) (p : PcBits) (s : State) :
    (s.withPc m p).mode = s.mode := rfl
@[simp] theorem State.withPc_cfg (m : Mode) (p : PcBits) (s : State) :
    (s.withPc m p).cfg = s.cfg := rfl

/-! What does not touch the program counters does not see the replacement. -/

theorem State.memRead_withPc (m : Mode) (p : PcBits) (s : State) (ea : Word) (n : Size) :
    (s.withPc m p).memRead ea n = s.memRead ea n := rfl
theorem State.dataAddr_withPc (m : Mode) (p : PcBits) (s : State) (ea : Word) (n : Size)
    (k : AccessKind) : (s.withPc m p).dataAddr ea n k = s.dataAddr ea n k := rfl
theorem State.fetchHalf_withPc (m : Mode) (p : PcBits) (s : State) (a : Word) :
    (s.withPc m p).fetchHalf a = s.fetchHalf a := rfl
theorem State.setMode_withPc (m n : Mode) (p : PcBits) (s : State) :
    (s.withPc m p).setMode n = (s.setMode n).withPc m p := rfl
theorem State.boundary_withPc (m : Mode) (p : PcBits) (s : State) :
    (s.withPc m p).boundary = s.boundary.withPc m p := rfl

theorem State.raise_withPc (m : Mode) (p : PcBits) (s : State) (x : Exc) :
    (s.withPc m p).raise x = mapNext (State.withPc m p) (s.raise x) := by
  cases hs : s.mode
  · rw [State.raise_task x hs, State.raise_task x (s := s.withPc m p) hs]
    rfl
  · rw [State.raise_scheduler x hs, State.raise_scheduler x (s := s.withPc m p) hs]
    rfl

theorem State.stop_withPc (m : Mode) (p : PcBits) (s : State) (e : AccessStop) :
    (s.withPc m p).stop e = mapNext (State.withPc m p) (s.stop e) := by
  cases e with
  | raises x => exact s.raise_withPc m p x
  | faults f => rfl

/-! ## The program counter of the mode that is not running -/

section
variable {m : Mode} {p : PcBits} {s : State}

theorem State.curPc_withPc (h : s.mode ≠ m) : (s.withPc m p).curPc = s.curPc := by
  cases m <;> cases hs : s.mode <;> simp_all [State.curPc, State.withPc]

theorem State.jump_withPc (h : s.mode ≠ m) (v : Word) :
    (s.withPc m p).jump v = (s.jump v).withPc m p := by
  cases m <;> cases hs : s.mode <;>
    simp_all [State.jump, State.withPc, State.setTpc, State.setSpc]

theorem State.advance_withPc (h : s.mode ≠ m) (len : Word) :
    (s.withPc m p).advance len = (s.advance len).withPc m p := by
  rw [State.advance, State.curPc_withPc h, State.jump_withPc h, State.advance]

theorem State.pcRead_withPc (h : s.mode ≠ m) : (s.withPc m p).pcRead = s.pcRead := by
  rw [State.pcRead, State.curPc_withPc h, State.withPc_cfg, State.pcRead]

theorem State.readX_withPc (h : s.mode ≠ m) (r : Reg) :
    (s.withPc m p).readX r = s.readX r := by
  cases r with
  | pc => exact State.pcRead_withPc h
  | gp g => rfl

theorem State.writeX_withPc (h : s.mode ≠ m) (len : Word) (d : Reg) (v : Word) :
    (s.withPc m p).writeX len d v = (s.writeX len d v).withPc m p := by
  cases d with
  | pc => exact State.jump_withPc h v
  | gp g => exact State.advance_withPc (s := s.setGpr g v) h len

theorem State.branchTarget_withPc (h : s.mode ≠ m) (off : PcBits) (rel : Bool) :
    (s.withPc m p).branchTarget off rel = s.branchTarget off rel := by
  have hb : (s.withPc m p).branchBase = s.branchBase := by
    unfold State.branchBase
    rw [State.pcRead_withPc h, State.curPc_withPc h, State.withPc_cfg]
  rw [State.branchTarget, hb, State.branchTarget]

/-- In TASK mode TPC by name is index 0 (R13). -/
theorem State.readTpc_of_task (h : s.mode = .task) : s.readTpc = s.readX .pc := by
  rw [State.readTpc, h]
  rfl

theorem State.writeTpc_of_task (h : s.mode = .task) (len v : Word) :
    s.writeTpc len v = s.writeX len .pc v := by
  rw [State.writeTpc, h]
  rfl

theorem Mode.eq_task_of_ne {a b : Mode} (h : a ≠ b) (hb : b ≠ .task) : a = .task := by
  cases a <;> cases b <;> simp_all

theorem State.readTpc_withPc (h : s.mode ≠ m) (hm : m ≠ .task) :
    (s.withPc m p).readTpc = s.readTpc := by
  have hs : s.mode = .task := Mode.eq_task_of_ne h hm
  rw [State.readTpc_of_task hs, State.readTpc_of_task (s := s.withPc m p) hs,
    State.readX_withPc h]

theorem State.writeTpc_withPc (h : s.mode ≠ m) (hm : m ≠ .task) (len v : Word) :
    (s.withPc m p).writeTpc len v = (s.writeTpc len v).withPc m p := by
  have hs : s.mode = .task := Mode.eq_task_of_ne h hm
  rw [State.writeTpc_of_task hs, State.writeTpc_of_task (s := s.withPc m p) hs,
    State.writeX_withPc h]

/-! Each shared shape of the meanings commutes with the replacement, once the operands that it is
given are the same in both states. -/

theorem next_writeX_withPc (h : s.mode ≠ m) {len : Word} {d : Reg} {v w : Word} (hv : w = v) :
    (.next ((s.withPc m p).writeX len d w) : Result)
      = mapNext (State.withPc m p) (.next (s.writeX len d v)) := by
  rw [hv, State.writeX_withPc h]
  rfl

theorem next_writeTpc_withPc (h : s.mode ≠ m) (hm : m ≠ .task) {len v w : Word} (hv : w = v) :
    (.next ((s.withPc m p).writeTpc len w) : Result)
      = mapNext (State.withPc m p) (.next (s.writeTpc len v)) := by
  rw [hv, State.writeTpc_withPc h hm]
  rfl

theorem branch_withPc (h : s.mode ≠ m) {c e : Bool} {off : PcBits} {rel : Bool} (hc : e = c) :
    branch e off rel (s.withPc m p) = mapNext (State.withPc m p) (branch c off rel s) := by
  rw [hc, branch_next, branch_next, State.branchTarget_withPc h, State.jump_withPc h,
    State.advance_withPc h, mapNext, apply_ite (State.withPc m p)]

theorem load_withPc (h : s.mode ≠ m) {len : Word} {n : Size} {ext : Word → Word} {a b : Word}
    {d : Reg} (ha : b = a) :
    load len n ext b d (s.withPc m p) = mapNext (State.withPc m p) (load len n ext a d s) := by
  rw [ha, load, load, State.memRead_withPc]
  cases s.memRead a n with
  | error e => exact s.stop_withPc m p e
  | ok v => exact next_writeX_withPc h rfl

theorem loadTpc_withPc (h : s.mode ≠ m) (hm : m ≠ .task) {len : Word} {n : Size}
    {ext : Word → Word} {a b : Word} (ha : b = a) :
    loadTpc len n ext b (s.withPc m p)
      = mapNext (State.withPc m p) (loadTpc len n ext a s) := by
  rw [ha, loadTpc, loadTpc, State.memRead_withPc]
  cases s.memRead a n with
  | error e => exact s.stop_withPc m p e
  | ok v => exact next_writeTpc_withPc h hm rfl

theorem store_withPc (h : s.mode ≠ m) {len : Word} {n : Size} {a b v w : Word} (ha : b = a)
    (hv : w = v) :
    store len n b w (s.withPc m p) = mapNext (State.withPc m p) (store len n a v s) := by
  rw [ha, hv, store, store, State.memWrite, State.memWrite, State.dataAddr_withPc]
  cases s.dataAddr a n .write with
  | error e => exact s.stop_withPc m p e
  | ok q => exact congrArg Host.Outcome.next (State.advance_withPc (s := s.storeBytes q n v) h len)

theorem State.eaD_withPc (h : s.mode ≠ m) (a : Reg) (imm : Word) :
    (s.withPc m p).eaD a imm = s.eaD a imm := by
  rw [State.eaD, State.readX_withPc h, State.eaD]

theorem State.enterScheduler_withPc (h : s.mode ≠ m) (len : Word) :
    (s.withPc m p).enterScheduler len = (s.enterScheduler len).withPc m p := by
  rw [State.enterScheduler, State.advance_withPc h, State.setMode_withPc, State.enterScheduler]

theorem State.returnToTask_withPc (h : s.mode ≠ m) (len : Word) :
    (s.withPc m p).returnToTask len = (s.returnToTask len).withPc m p := by
  rw [State.returnToTask, State.advance_withPc h, State.setMode_withPc, State.returnToTask]

theorem State.fetchInstr_withPc (h : s.mode ≠ m) : (s.withPc m p).fetchInstr = s.fetchInstr := by
  simp only [State.fetchInstr, State.curPc_withPc h, State.fetchHalf_withPc]

end

/-- An instruction neither reads nor writes the program counter of the mode that is not running,
unless that is TPC and the instruction names it (R36, R39). -/
theorem exec_withPc {m : Mode} {p : PcBits} {i : Instr} {s : State} (h : s.mode ≠ m)
    (hi : m = .task → readsTpcByName i = false ∧ writesTpcByName i = false) :
    exec i (s.withPc m p) = mapNext (State.withPc m p) (exec i s) := by
  cases i
  case fill | brk | syscall =>
    exact congrArg Host.Outcome.next (State.enterScheduler_withPc h 2)
  case stu => exact congrArg Host.Outcome.next (State.returnToTask_withPc h 2)
  case fence => exact congrArg Host.Outcome.next (State.advance_withPc (s := s.fence) h 2)
  case wfence => exact congrArg Host.Outcome.next (State.advance_withPc (s := s.flush) h 2)
  case xmov a d =>
    have ha : (s.withPc m p).readXt a = s.readXt a := by
      cases a with
      | pc => exact State.readTpc_withPc h fun e => nomatch (hi e).1
      | gp g => rfl
    cases d with
    | pc => exact next_writeTpc_withPc h (fun e => nomatch (hi e).2) ha
    | gp g => exact next_writeX_withPc (d := .gp g) h ha
  case lit d imm =>
    cases d with
    | pc => exact next_writeTpc_withPc h (fun e => nomatch (hi e).2) rfl
    | gp g => exact next_writeX_withPc (d := .gp g) h rfl
  case ldsbA | ldubA | ldshA | lduhA | ldwA => exact load_withPc h (State.readX_withPc h _)
  case ldsbC | ldubC | ldshC | lduhC | ldwC => exact load_withPc h rfl
  case ldsbD | ldubD | ldshD | lduhD | ldwD => exact load_withPc h (State.eaD_withPc h _ _)
  case ldsbCTpc | ldubCTpc | ldshCTpc | lduhCTpc | ldwCTpc =>
    exact loadTpc_withPc h (fun e => nomatch (hi e).2) rfl
  case ldsbDTpc | ldubDTpc | ldshDTpc | lduhDTpc | ldwDTpc =>
    exact loadTpc_withPc h (fun e => nomatch (hi e).2) (State.eaD_withPc h _ _)
  case stbA | sthA | stwA =>
    exact store_withPc h (State.readX_withPc h _) (State.readX_withPc h _)
  case stbC | sthC | stwC => exact store_withPc h rfl (State.readX_withPc h _)
  case stbD | sthD | stwD =>
    exact store_withPc h (State.eaD_withPc h _ _) (State.readX_withPc h _)
  case stbCTpc | sthCTpc | stwCTpc =>
    exact store_withPc h rfl (State.readTpc_withPc h fun e => nomatch (hi e).1)
  case stbDTpc | sthDTpc | stwDTpc =>
    exact store_withPc h (State.eaD_withPc h _ _)
      (State.readTpc_withPc h fun e => nomatch (hi e).1)
  case beqz | bnez | bltz | bgez | bgtz | blez | beq | bne | blts | bges | bltu | bgeu | bflt
      | bfge | bbs | bbc =>
    exact branch_withPc h (by simp only [State.readX_withPc h])
  -- What is left raises SII or writes `x[d]`, with operands that are reads of `x[]`.
  all_goals first
    | exact State.raise_withPc m p s .sii
    | exact next_writeX_withPc h (by simp only [State.readX_withPc h, State.withPc_cfg])

/-- Replacing SPC before a step in TASK mode replaces it in the outcome and does nothing else, be
the step an interrupt, a stopped fetch or an instruction (R39). -/
theorem step_withPc_scheduler {s : State} (hm : s.mode = .task) (p : PcBits) :
    step (s.withPc .scheduler p) = mapNext (State.withPc .scheduler p) (step s) := by
  have h : s.boundary.mode ≠ .scheduler := by simp [hm]
  have hrun : (s.withPc .scheduler p).boundary.runInstr
      = mapNext (State.withPc .scheduler p) s.boundary.runInstr := by
    rw [State.boundary_withPc, State.runInstr, State.runInstr, State.fetchInstr_withPc h]
    cases s.boundary.fetchInstr with
    | error e => exact s.boundary.stop_withPc .scheduler p e
    | ok i => exact exec_withPc h nofun
  have hint : (s.withPc .scheduler p).interrupted = s.interrupted := rfl
  rw [step, step, hint, hrun]
  cases s.interrupted <;> rfl

/-! ## TPC overwritten by name in SCHEDULER mode -/

section
variable {p : PcBits} {s : State}

theorem State.writeTpc_withPc_task (hs : s.mode = .scheduler) (len v : Word) :
    (s.withPc .task p).writeTpc len v = s.writeTpc len v := by
  rw [State.writeTpc, State.writeTpc, State.withPc_mode, hs]
  rfl

theorem State.stop_withPc_task (hs : s.mode = .scheduler) (e : AccessStop) :
    (s.withPc .task p).stop e = s.stop e := by
  cases e with
  | raises x =>
    rw [State.stop, State.stop, State.raise_scheduler x hs]
    exact State.raise_scheduler (s := s.withPc .task p) x hs
  | faults f => rfl

theorem loadTpc_withPc_task (hs : s.mode = .scheduler) {len : Word} {n : Size}
    {ext : Word → Word} {a b : Word} (ha : b = a) :
    loadTpc len n ext b (s.withPc .task p) = loadTpc len n ext a s := by
  rw [ha, loadTpc, loadTpc, State.memRead_withPc]
  cases s.memRead a n with
  | error e => exact State.stop_withPc_task hs e
  | ok v => exact congrArg Host.Outcome.next (State.writeTpc_withPc_task hs len (ext v))

/-- In SCHEDULER mode an instruction that writes TPC by name and does not read it has the same
outcome whatever TPC held (R39). -/
theorem exec_withPc_task_of_writesTpc {i : Instr} (hs : s.mode = .scheduler)
    (hr : readsTpcByName i = false) (hw : writesTpcByName i = true) :
    exec i (s.withPc .task p) = exec i s := by
  have h : s.mode ≠ .task := by simp [hs]
  cases i
  case xmov a d =>
    cases d with
    | gp g => cases hw
    | pc =>
      cases a with
      | pc => cases hr
      | gp g => exact congrArg Host.Outcome.next (State.writeTpc_withPc_task hs 2 _)
  case lit d imm =>
    cases d with
    | gp g => cases hw
    | pc => exact congrArg Host.Outcome.next (State.writeTpc_withPc_task hs 6 imm)
  case ldsbCTpc | ldubCTpc | ldshCTpc | lduhCTpc | ldwCTpc => exact loadTpc_withPc_task hs rfl
  case ldsbDTpc | ldubDTpc | ldshDTpc | lduhDTpc | ldwDTpc =>
    exact loadTpc_withPc_task hs (State.eaD_withPc h _ _)
  all_goals cases hw

/-- In SCHEDULER mode an instruction that does not read TPC by name does the same to everything but
TPC, whatever TPC held (R39). -/
theorem exec_withPc_task_next {i : Instr} {t : State} (hs : s.mode = .scheduler)
    (hr : readsTpcByName i = false) (he : exec i s = .next t) :
    ∃ q, exec i (s.withPc .task p) = .next (t.withPc .task q) := by
  cases hw : writesTpcByName i with
  | true => exact ⟨t.tpc, by rw [exec_withPc_task_of_writesTpc hs hr hw, he]; rfl⟩
  | false =>
    have h : s.mode ≠ .task := by simp [hs]
    exact ⟨p, by rw [exec_withPc h fun _ => ⟨hr, hw⟩, he]; rfl⟩

end

/-! ## The obligations -/

/-- Settles O52: the two frame clauses from the case list `exec_next`, the two independence clauses
from `exec_withPc`. -/
theorem taskCannotTouchSpc : Obligations.TaskCannotTouchSpc := by
  refine ⟨fun s t => step_spc_of_task, ?_, ?_, ?_⟩
  · intro s p hm
    simp only [← State.withPc_scheduler]
    exact step_withPc_scheduler hm p
  · intro i s t hs he hne
    by_contra hw
    obtain ⟨-, htpc⟩ := (exec_next he).keepsOtherPc fun _ => Bool.not_eq_true _ ▸ hw
    exact hne (htpc hs)
  · intro i s t p hs hr he
    obtain ⟨q, hq⟩ := exec_withPc_task_next (p := p) hs hr he
    rw [← State.withPc_task]
    exact ⟨t.withPc .task q, hq, rfl, rfl, rfl, KeepsMemory.of_eq rfl rfl rfl, rfl, rfl, rfl⟩

/-- Settles O55: a general register with the advance, or no general register; in the second case the
other program counter changes only where TPC is written by name beside SPC's advance. -/
theorem oneRegisterWritten : Obligations.OneRegisterWritten := by
  intro i s t he
  have hn := exec_next he
  rcases hn.gprs_eq_or_setGpr_advance with hg | ⟨d, v, rfl⟩
  · refine .inl ⟨hg, ?_⟩
    by_cases hw : s.mode = .scheduler ∧ writesTpcByName i = true
    · obtain ⟨hs, hw⟩ := hw
      exact .inr ⟨fun hm => (nomatch hs.symm.trans hm), fun _ => hn.spc_of_writesTpc hs hw⟩
    · exact .inl (hn.keepsOtherPc fun hs => by simpa [hs] using hw)
  · obtain ⟨hgprs, hpc, hm, hother, -⟩ :=
      WritesReg.setGpr_advance s (lenWord i) d v (evenPart_curPc_lenWord i s)
    refine .inr ⟨d, fun g hgd => ?_, hm, hother, hpc⟩
    rw [hgprs, if_neg fun e => hgd (Reg.gp.inj e).symm]

/-- Settles O20: a program counter keeps the even part of what is written to it. -/
theorem pcDropsBitZero : Obligations.PcDropsBitZero := by
  intro s v
  obtain ⟨-, hli, -⟩ := WritesReg.writeX s 6 .pc v (evenPart_curPc_six s)
  obtain ⟨hlit, -⟩ := WritesTpc.writeTpc s 6 v (evenPart_curPc_six s)
  refine ⟨pcAddr_bit0 _, pcAddr_bit0 _, pcAddr_bit0 _, ⟨_, rfl, ?_⟩,
    ⟨s.writeTpc 6 v, rfl, ?_⟩⟩
  · rw [hli, if_pos rfl]
    exact ⟨evenPart_bit0 v, fun k => evenPart_getLsbD_of_pos v⟩
  · rw [hlit]
    exact ⟨evenPart_bit0 v, fun k => evenPart_getLsbD_of_pos v⟩

/-- Settles O49: the fields of `State.reset`, and every register and every byte read from them. -/
theorem resetState : Obligations.ResetState := by
  refine ⟨rfl, rfl, rfl, by decide, by decide, fun g => ?_, fun a => rfl⟩
  cases g <;> rfl

end Sys2Proof.Machine
end

section
/-!
PROOFS. The family 20_memory.md: the form of the state (R60, R70, R79), Translate (R66), the data
access of a load or store (R67, R68), stores seen by later loads (R74, R75), instruction fetch (R65)
and what reaches memory (R61). What a step writes is read off the case lists `exec_next` and
`step_next`. What it depends on is said by `exec_related`: an instruction keeps every relation of
states that agree in the registers, as far as its data access does. What is fetched is said by
`selects_decodeInst`: INST of an instruction selects that instruction.
-/

namespace Sys2Proof

/-! ## Decoding what was encoded -/

/-- What INST of instruction `i` selects: `i` itself, or `i` once its FIELD_I is there, with the
halfwords that `encode` gives it (R65, R100). -/
inductive Selects (i : Instr) : Decoded → Prop
  | short (hr : i.isReserved = false) (he : encode i = [encodeInst i]) : Selects i (.short i)
  | reserved (hr : i.isReserved = true) : Selects i (.reserved i)
  | long (f : Word → Instr) (hr : i.isReserved = false) (hf : f i.fieldI = i)
      (he : encode i
        = [encodeInst i, i.fieldI.extractLsb' 0 16, i.fieldI.extractLsb' 16 16]) :
      Selects i (.long f)

/-- The group that the fields B, A and D select outside the load/store space, each read as a
register where it names one (R100). -/
def decodeGroup (c : Nib) : Option Reg → Option Reg → Option Reg → Decoded
  | some b, some a, some d => decodeCBAD c b a d
  | some b, none, some d => decodeCBD c b d
  | none, some a, some d => decodeCAD c a d
  | some b, some a, none => decodeCBA c b a
  | none, some a, none => .branch (.bbs c a)
  | some b, none, none => .branch (.bbc c b)
  | none, none, some d => decodeCD c d
  | none, none, none => .reserved (.siiCOnly c)

theorem decodeFields_eq_decodeGroup {c : Nib} (hc : c ≠ .xf) (b a d : Nib) :
    decodeFields c b a d = decodeGroup c b.reg? a.reg? d.reg? := by
  cases c
  case xf => exact absurd rfl hc
  all_goals rfl

section
variable {c : Nib} (hc : c ≠ .xf)
include hc

theorem decodeFields_cbad (b a d : Reg) :
    decodeFields c b.nib a.nib d.nib = decodeCBAD c b a d := by
  rw [decodeFields_eq_decodeGroup hc, Reg.reg?_nib, Reg.reg?_nib, Reg.reg?_nib]
  rfl

theorem decodeFields_cbd (b d : Reg) : decodeFields c b.nib .xf d.nib = decodeCBD c b d := by
  rw [decodeFields_eq_decodeGroup hc, Reg.reg?_nib, Nib.reg?_xf, Reg.reg?_nib]
  rfl

theorem decodeFields_cad (a d : Reg) : decodeFields c .xf a.nib d.nib = decodeCAD c a d := by
  rw [decodeFields_eq_decodeGroup hc, Nib.reg?_xf, Reg.reg?_nib, Reg.reg?_nib]
  rfl

theorem decodeFields_cba (b a : Reg) : decodeFields c b.nib a.nib .xf = decodeCBA c b a := by
  rw [decodeFields_eq_decodeGroup hc, Reg.reg?_nib, Reg.reg?_nib, Nib.reg?_xf]
  rfl

theorem decodeFields_ca (a : Reg) : decodeFields c .xf a.nib .xf = .branch (.bbs c a) := by
  rw [decodeFields_eq_decodeGroup hc, Nib.reg?_xf, Reg.reg?_nib]
  rfl

theorem decodeFields_cb (b : Reg) : decodeFields c b.nib .xf .xf = .branch (.bbc c b) := by
  rw [decodeFields_eq_decodeGroup hc, Reg.reg?_nib, Nib.reg?_xf]
  rfl

theorem decodeFields_cd (d : Reg) : decodeFields c .xf .xf d.nib = decodeCD c d := by
  rw [decodeFields_eq_decodeGroup hc, Nib.reg?_xf, Reg.reg?_nib]
  rfl

theorem decodeFields_c : decodeFields c .xf .xf .xf = .reserved (.siiCOnly c) :=
  decodeFields_eq_decodeGroup hc .xf .xf .xf

end

/-- Every field value but 0xf names a register (R31, R33). -/
theorem exists_reg_of_ne_xf {n : Nib} (h : n ≠ .xf) : ∃ r : Reg, n = r.nib := by
  obtain ⟨r, hr⟩ := Option.ne_none_iff_exists'.1 fun e => h (Nib.reg?_eq_none.1 e)
  exact ⟨r, Nib.reg?_eq_some.1 hr⟩

theorem decodeLsA_reg (b : Nib) (a d : Reg) (mk : Reg → Reg → Instr) :
    decodeLsA b a.nib d.nib mk = .short (mk a d) := by
  rw [decodeLsA, Reg.reg?_nib, Reg.reg?_nib]

theorem decodeLsA_fieldD (b a : Nib) (mk : Reg → Reg → Instr) :
    decodeLsA b a .xf mk = .reserved (.siiLsADf b a) := by
  rw [decodeLsA, Nib.reg?_xf]
  cases a.reg? <;> rfl

theorem decodeLsA_fieldA (b : Nib) (d : Reg) (mk : Reg → Reg → Instr) :
    decodeLsA b .xf d.nib mk = .reserved (.siiLsAAf b d) := by
  rw [decodeLsA, Nib.reg?_xf, Reg.reg?_nib]

section
variable (formC : Reg → Word → Instr) (formCTpc : Word → Instr)
  (formD : Reg → Reg → Word → Instr) (formDTpc : Reg → Word → Instr)

theorem decodeLsCD_formC (d : Reg) :
    decodeLsCD .xf d.nib formC formCTpc formD formDTpc = .long (formC d) := by
  rw [decodeLsCD, Nib.reg?_xf, Reg.reg?_nib]

theorem decodeLsCD_formD (a d : Reg) :
    decodeLsCD a.nib d.nib formC formCTpc formD formDTpc = .long (formD a d) := by
  rw [decodeLsCD, Reg.reg?_nib, Reg.reg?_nib]

theorem decodeLsCD_formDTpc (a : Reg) :
    decodeLsCD a.nib .xf formC formCTpc formD formDTpc = .long (formDTpc a) := by
  rw [decodeLsCD, Reg.reg?_nib, Nib.reg?_xf]

end

section
variable {i : Instr} {c b a d : Nib} (hf : i.fields = (c, b, a, d))
include hf

theorem decodeInst_of_fields : decodeInst (encodeInst i) = decodeFields c b a d := by
  rw [encodeInst_eq, hf, decodeInst_pack]

theorem selects_short (hd : decodeFields c b a d = .short i) (hr : i.isReserved = false)
    (hl : ¬ ((c = .xf ∧ 8 ≤ b.val) ∨ b = .xf ∨ a = .xf ∨ d = .xf)) :
    Selects i (decodeInst (encodeInst i)) := by
  rw [decodeInst_of_fields hf, hd]
  refine .short hr ?_
  rw [encode_short hf hl, encodeInst_eq, hf]

theorem selects_reserved (hd : decodeFields c b a d = .reserved i) (hr : i.isReserved = true) :
    Selects i (decodeInst (encodeInst i)) := by
  rw [decodeInst_of_fields hf, hd]
  exact .reserved hr

theorem selects_long {f : Word → Instr} (hd : decodeFields c b a d = .long f)
    (hi : f i.fieldI = i) (hr : i.isReserved = false)
    (hl : (c = .xf ∧ 8 ≤ b.val) ∨ b = .xf ∨ a = .xf ∨ d = .xf) :
    Selects i (decodeInst (encodeInst i)) := by
  rw [decodeInst_of_fields hf, hd]
  refine .long f hr hi ?_
  rw [encode_long hf hl, encodeInst_eq, hf]

theorem selects_branch {mk : PcBits → Bool → Instr} {off : PcBits} {rel : Bool}
    (hd : decodeFields c b a d = .branch mk) (hI : i.fieldI = branchField off rel)
    (hi : mk off rel = i) (hr : i.isReserved = false) (hl : d = .xf) :
    Selects i (decodeInst (encodeInst i)) :=
  selects_long hf hd (by rw [hI, offsetOf_branchField, relOf_branchField, hi]) hr (by simp [hl])

end

/-- INST of a well-formed instruction selects that instruction (R100, R108). -/
theorem selects_decodeInst {i : Instr} (hw : i.wf = true) :
    Selects i (decodeInst (encodeInst i)) := by
  cases i
  case xor | or =>
    refine selects_short rfl ?_ rfl (by simp)
    rw [decodeFields_cbad (by simp)]
    exact if_neg (of_decide_eq_true hw)
  case and | sub | add | shl | shr | sar | muls | mulu | mulhs | mulhu | fadd | fsub | fmul =>
    exact selects_short rfl (decodeFields_cbad (by simp) _ _ _) rfl (by simp)
  case xmov | inc | neg | bswap | bsi | ftoi | frecip =>
    exact selects_short rfl (decodeFields_cbad (by simp) .pc _ _) rfl (by simp)
  case dec | not | wswap | wsi | itof | frsqrt =>
    exact selects_short rfl (decodeFields_cbad (by simp) _ .pc _) rfl (by simp)
  case fill | brk | syscall | stu | fence | wfence | woi =>
    exact selects_short rfl rfl rfl (by simp)
  case xori | ori | andi | subi | addi | shli | shri | sari | mulsi | mului | mulhsi | mulhui
      | faddi | fsubi | fmuli =>
    exact selects_long rfl (decodeFields_cbd (by simp) _ _) rfl rfl (by simp)
  case isub | ishl | ishr | isar | ifsub =>
    exact selects_long rfl (decodeFields_cad (by simp) _ _) rfl rfl (by simp)
  case li | lit => exact selects_long rfl (decodeFields_cd (by simp) _) rfl rfl (by simp)
  case beqz b off rel =>
    exact selects_branch rfl (decodeFields_cba (by simp) b .pc) rfl rfl rfl rfl
  case bnez b off rel =>
    exact selects_branch rfl (decodeFields_cba (by simp) b (.gp .r1)) rfl rfl rfl rfl
  case bltz b off rel =>
    exact selects_branch rfl (decodeFields_cba (by simp) b (.gp .r2)) rfl rfl rfl rfl
  case bgez b off rel =>
    exact selects_branch rfl (decodeFields_cba (by simp) b (.gp .r3)) rfl rfl rfl rfl
  case bgtz b off rel =>
    exact selects_branch rfl (decodeFields_cba (by simp) b (.gp .r4)) rfl rfl rfl rfl
  case blez b off rel =>
    exact selects_branch rfl (decodeFields_cba (by simp) b (.gp .r5)) rfl rfl rfl rfl
  case beq | bne | blts | bges | bltu | bgeu | bflt | bfge =>
    exact selects_branch rfl (decodeFields_cba (by simp) _ _) rfl rfl rfl rfl
  case bbs n a off rel =>
    have hn : n ≠ .xf := by rintro rfl; cases hw
    exact selects_branch rfl (decodeFields_ca hn a) rfl rfl rfl rfl
  case bbc n b off rel =>
    have hn : n ≠ .xf := by rintro rfl; cases hw
    exact selects_branch rfl (decodeFields_cb hn b) rfl rfl rfl rfl
  case ldsbA | ldubA | ldshA | lduhA | ldwA | stbA | sthA | stwA =>
    exact selects_short rfl (decodeLsA_reg _ _ _ _) rfl (by simp [Nib.val])
  case ldsbC | ldubC | ldshC | lduhC | ldwC | stbC | sthC | stwC =>
    exact selects_long rfl (decodeLsCD_formC _ _ _ _ _) rfl rfl (by simp)
  case ldsbCTpc | ldubCTpc | ldshCTpc | lduhCTpc | ldwCTpc | stbCTpc | sthCTpc | stwCTpc =>
    exact selects_long rfl rfl rfl rfl (by simp)
  case ldsbD | ldubD | ldshD | lduhD | ldwD | stbD | sthD | stwD =>
    exact selects_long rfl (decodeLsCD_formD _ _ _ _ _ _) rfl rfl
      (.inl ⟨rfl, by simp [Nib.val]⟩)
  case ldsbDTpc | ldubDTpc | ldshDTpc | lduhDTpc | ldwDTpc | stbDTpc | sthDTpc | stwDTpc =>
    exact selects_long rfl (decodeLsCD_formDTpc _ _ _ _ _) rfl rfl (by simp)
  case siiXorHole n => cases n <;> first | exact selects_reserved rfl rfl rfl | cases hw
  case siiAD0_9 | siiAD0_a | siiAD0_b | siiAD0_c | siiAD0_d | siiAD0_e =>
    exact selects_reserved rfl (decodeFields_cbad (by simp) _ _ .pc) rfl
  case siiAB0A0_9 | siiAB0A0_a | siiAB0A0_b | siiAB0A0_c | siiAB0A0_d | siiAB0A0_e =>
    exact selects_reserved rfl (decodeFields_cbad (by simp) .pc .pc _) rfl
  case siiBD0_c | siiBD0_d | siiBD0_e =>
    exact selects_reserved rfl (decodeFields_cbd (by simp) _ .pc) rfl
  case siiBB0_c | siiBB0_d | siiBB0_e =>
    exact selects_reserved rfl (decodeFields_cbd (by simp) .pc _) rfl
  case siiC_0 | siiC_1 | siiC_2 | siiC_4 | siiC_8 | siiC_9 | siiC_a | siiC_b | siiC_c | siiC_e =>
    exact selects_reserved rfl (decodeFields_cad (by simp) _ _) rfl
  case siiCD0_d => exact selects_reserved rfl (decodeFields_cad (by simp) _ .pc) rfl
  case siiCA0_d => exact selects_reserved rfl (decodeFields_cad (by simp) .pc _) rfl
  case siiBr0 b a =>
    obtain ⟨r, rfl⟩ : ∃ r : Reg, a = r.nib := exists_reg_of_ne_xf (by rintro rfl; cases hw)
    refine selects_reserved rfl ((decodeFields_cba (by simp) b r).trans ?_) rfl
    cases r with
    | pc => cases hw
    | gp g => cases g <;> first | rfl | cases hw
  case siiBr_7 | siiBr_8 | siiBr_9 | siiBr_a | siiBr_b | siiBr_c =>
    exact selects_reserved rfl (decodeFields_cba (by simp) _ _) rfl
  case siiCD c d =>
    have hc : c ≠ .xf := by rintro rfl; cases hw
    refine selects_reserved rfl ((decodeFields_cd hc d).trans ?_) rfl
    cases c <;> first | rfl | cases hw
  case siiCOnly c =>
    have hc : c ≠ .xf := by rintro rfl; cases hw
    exact selects_reserved rfl (decodeFields_c hc) rfl
  case siiLsADf b a =>
    refine selects_reserved rfl ?_ rfl
    cases b <;> first | exact decodeLsA_fieldD _ a _ | cases hw
  case siiLsAAf b d =>
    refine selects_reserved rfl ?_ rfl
    cases b <;> first | exact decodeLsA_fieldA _ d _ | cases hw

end Sys2Proof

namespace Sys2Proof.Machine

/-! ## Fetching an instruction -/

theorem State.halfAddr_zero (s : State) : s.halfAddr 0 = s.curPc := BitVec.add_zero _

/-- INST is the first halfword of every instruction, and is always fetched (R65, R90). -/
theorem fetches_inst (i : Instr) : fetches i 0 (encodeInst i) := by
  refine ⟨?_, fun _ => rfl⟩
  unfold encode
  split <;> rfl

/-- The two halfwords of FIELD_I are fetched for a defined 48-bit instruction (R65). -/
theorem fetches_fieldI {i : Instr} (hr : i.isReserved = false)
    (he : encode i = [encodeInst i, i.fieldI.extractLsb' 0 16, i.fieldI.extractLsb' 16 16]) :
    fetches i 1 (i.fieldI.extractLsb' 0 16) ∧ fetches i 2 (i.fieldI.extractLsb' 16 16) := by
  simp [fetches, he, hr]

section
variable {s : State} {i : Instr} (hw : i.wf = true)
include hw

/-- The halfwords of an instruction at `CurPC`, once they can be fetched, are fetched as that
instruction (R65, R392). -/
theorem State.fetchInstr_of_fetches
    (hf : ∀ k h, fetches i k h → s.fetchHalf (s.halfAddr k) = .ok h) :
    s.fetchInstr = .ok i := by
  have h0 : s.fetchHalf s.curPc = .ok (encodeInst i) :=
    s.halfAddr_zero ▸ hf 0 _ (fetches_inst i)
  have hsel := selects_decodeInst hw
  generalize hd : decodeInst (encodeInst i) = d at hsel
  cases hsel with
  | short | reserved => simp only [State.fetchInstr, h0, hd]
  | long f hr hi he =>
    obtain ⟨hlo, hhi⟩ := fetches_fieldI hr he
    have h1 : s.fetchHalf (s.curPc + 2) = .ok (i.fieldI.extractLsb' 0 16) := hf 1 _ hlo
    have h2 : s.fetchHalf (s.curPc + 4) = .ok (i.fieldI.extractLsb' 16 16) := hf 2 _ hhi
    simp only [State.fetchInstr, h0, hd, h1, h2, fieldI_halves, hi]

/-- The first halfword that cannot be fetched stops the fetch of the instruction (R382). -/
theorem State.fetchInstr_of_fetches_error {k : Nat} {h : Half} {e : AccessStop}
    (hk : fetches i k h)
    (hb : ∀ j g, j < k → fetches i j g → s.fetchHalf (s.halfAddr j) = .ok g)
    (he : s.fetchHalf (s.halfAddr k) = .error e) : s.fetchInstr = .error e := by
  obtain rfl | hpos := Nat.eq_zero_or_pos k
  · rw [State.halfAddr_zero] at he
    simp only [State.fetchInstr, he]
  have h0 : s.fetchHalf s.curPc = .ok (encodeInst i) :=
    s.halfAddr_zero ▸ hb 0 _ hpos (fetches_inst i)
  obtain ⟨hin, hres⟩ := hk
  have hsel := selects_decodeInst hw
  generalize hd : decodeInst (encodeInst i) = d at hsel
  cases hsel with
  | short hr hen =>
    obtain ⟨hlt, -⟩ := List.getElem?_eq_some_iff.1 hin
    rw [hen, List.length_singleton] at hlt
    omega
  | reserved hr => exact absurd (hres hr) hpos.ne'
  | long f hr hi hen =>
    obtain ⟨hlt, -⟩ := List.getElem?_eq_some_iff.1 hin
    obtain ⟨hlo, -⟩ := fetches_fieldI hr hen
    have hk3 : k < 3 := by simpa [hen] using hlt
    obtain rfl | rfl : k = 1 ∨ k = 2 := by omega
    · have h1 : s.fetchHalf (s.curPc + 2) = .error e := he
      simp only [State.fetchInstr, h0, hd, h1]
    · have h1 : s.fetchHalf (s.curPc + 2) = .ok (i.fieldI.extractLsb' 0 16) :=
        hb 1 _ (by decide) hlo
      have h2 : s.fetchHalf (s.curPc + 4) = .error e := he
      simp only [State.fetchInstr, h0, hd, h1, h2]

end

/-- A permitted fetch of a stale halfword, fetch not being coherent (R79, D20). -/
theorem State.fetchHalf_stale {s : State} {a p : Word}
    (ht : s.translate a .half .fetch = .permitted p) (hc : s.cfg.ifetchCoherent = false)
    (hs : p.toNat ∈ s.stale ∨ (p + 1).toNat ∈ s.stale) :
    s.fetchHalf a = .error (.faults (.staleFetch a)) := by
  have hany : (accessAddrs p .half).any (fun b => s.stale.contains b) = true := by
    rw [show accessAddrs p .half = [(p + 0).toNat, (p + 1).toNat] from rfl, add_zero]
    simpa only [List.any_cons, List.any_nil, Bool.or_false, Bool.or_eq_true,
      List.contains_iff_mem] using hs
  simp only [State.fetchHalf, ht, hc, hany, Bool.not_false, Bool.and_true, if_true]

/-! ## A step that takes no interrupt -/

section
variable {s : State} (hn : s.interrupted = false)
include hn

theorem step_of_fetchInstr_ok {i : Instr} (hf : s.boundary.fetchInstr = .ok i) :
    step s = exec i s.boundary := by
  simp only [step, hn, Bool.false_eq_true, if_false, State.runInstr, hf]

theorem step_of_fetchInstr_error {e : AccessStop} (hf : s.boundary.fetchInstr = .error e) :
    step s = s.boundary.stop e := by
  simp only [step, hn, Bool.false_eq_true, if_false, State.runInstr, hf]

end

/-! ## The one data access of a load or store -/

/-- A data access and the instruction's end: `finish` answers the next state from the physical
address, and a stopped access abandons the instruction (R300). -/
def State.access (s : State) (ea : Word) (n : Size) (k : AccessKind) (finish : Word → State) :
    Result :=
  match s.dataAddr ea n k with
  | .error e => s.stop e
  | .ok p => .next (finish p)

section
variable {s : State} {ea : Word} {n : Size} {k : AccessKind} {finish : Word → State}

theorem State.access_of_error {e : AccessStop} (h : s.dataAddr ea n k = .error e) :
    s.access ea n k finish = s.stop e := by rw [State.access, h]

theorem State.access_of_ok {p : Word} (h : s.dataAddr ea n k = .ok p) :
    s.access ea n k finish = .next (finish p) := by rw [State.access, h]

end

theorem load_eq_access (len : Word) (n : Size) (ext : Word → Word) (ea : Word) (d : Reg)
    (s : State) :
    load len n ext ea d s
      = s.access ea n .read fun p => s.writeX len d (ext (s.loadBytes p n)) := by
  unfold load State.memRead State.access
  cases s.dataAddr ea n .read <;> rfl

theorem loadTpc_eq_access (len : Word) (n : Size) (ext : Word → Word) (ea : Word) (s : State) :
    loadTpc len n ext ea s
      = s.access ea n .read fun p => s.writeTpc len (ext (s.loadBytes p n)) := by
  unfold loadTpc State.memRead State.access
  cases s.dataAddr ea n .read <;> rfl

theorem store_eq_access (len : Word) (n : Size) (ea v : Word) (s : State) :
    store len n ea v s = s.access ea n .write fun p => (s.storeBytes p n v).advance len := by
  unfold store State.memWrite State.access
  cases s.dataAddr ea n .write <;> rfl

/-- Every load and store is its one data access followed by an end that cannot stop (R300). -/
theorem exec_eq_access {i : Instr} {s : State} {ea : Word} {n : Size} {k : AccessKind}
    (h : dataAccess i s = some (ea, n, k)) :
    ∃ finish, exec i s = s.access ea n k finish := by
  cases i
  case ldsbA | ldubA | ldshA | lduhA | ldwA | ldsbC | ldubC | ldshC | lduhC | ldwC
      | ldsbD | ldubD | ldshD | lduhD | ldwD =>
    cases h
    exact ⟨_, load_eq_access ..⟩
  case ldsbCTpc | ldubCTpc | ldshCTpc | lduhCTpc | ldwCTpc
      | ldsbDTpc | ldubDTpc | ldshDTpc | lduhDTpc | ldwDTpc =>
    cases h
    exact ⟨_, loadTpc_eq_access ..⟩
  case stbA | sthA | stwA | stbC | sthC | stwC | stbD | sthD | stwD
      | stbCTpc | sthCTpc | stwCTpc | stbDTpc | sthDTpc | stwDTpc =>
    cases h
    exact ⟨_, store_eq_access ..⟩
  all_goals cases h

theorem exec_of_dataAddr_error {i : Instr} {s : State} {ea : Word} {n : Size} {k : AccessKind}
    {e : AccessStop} (h : dataAccess i s = some (ea, n, k)) (he : s.dataAddr ea n k = .error e) :
    exec i s = s.stop e := by
  obtain ⟨finish, hx⟩ := exec_eq_access h
  rw [hx, State.access_of_error he]

theorem exec_of_dataAddr_ok {i : Instr} {s : State} {ea : Word} {n : Size} {k : AccessKind}
    {p : Word} (h : dataAccess i s = some (ea, n, k)) (hp : s.dataAddr ea n k = .ok p) :
    ∃ t, exec i s = .next t := by
  obtain ⟨finish, hx⟩ := exec_eq_access h
  exact ⟨finish p, by rw [hx, State.access_of_ok hp]⟩

/-- Raising an exception is no Misaligned fault. -/
theorem State.raise_ne_misaligned (s : State) (x : Exc) (a : Word) :
    s.raise x ≠ .fault (.misaligned a) := by
  cases hm : s.mode <;> simp [State.raise, hm]

/-- A load or store is the fault Misaligned only where its alignment check fails (R68). -/
theorem misaligned_of_exec {i : Instr} {s : State} {ea a : Word} {n : Size} {k : AccessKind}
    (ha : dataAccess i s = some (ea, n, k)) (hf : exec i s = .fault (.misaligned a)) :
    ea.toNat % sizeBytes n ≠ 0 := by
  cases hd : s.dataAddr ea n k with
  | ok p =>
    obtain ⟨t, ht⟩ := exec_of_dataAddr_ok ha hd
    cases ht.symm.trans hf
  | error e =>
    have hs : s.stop e = .fault (.misaligned a) := (exec_of_dataAddr_error ha hd).symm.trans hf
    cases e with
    | raises x => exact absurd hs (s.raise_ne_misaligned x a)
    | faults f =>
      obtain ⟨⟨hu, -⟩, -⟩ := State.dataAddr_faults.1 hd
      exact hu

/-! ## The form of the state -/

/-- An instruction keeps the form: where it writes memory it issues a store or performs the queue,
and everything else it does leaves memory, the queue and the stale addresses as they are. -/
theorem ExecNext.keepsForm {i : Instr} {s t : State} (h : ExecNext i s t) (hs : s.wf = true) :
    t.wf = true := by
  cases h with
  | writes d v hd hi =>
    obtain ⟨-, hm, hq, hst, -⟩ := s.writeX_keeps (lenWord i) d v
    exact (State.wf_congr hm hq hst).trans hs
  | writesTpc v hi hd =>
    obtain ⟨-, -, hm, hq, hst, -⟩ := s.writeTpc_keeps (lenWord i) v
    exact (State.wf_congr hm hq hst).trans hs
  | jumps | goesOn | enters | returns | raises =>
    exact (State.wf_congr (by simp) (by simp) (by simp)).trans hs
  | stores ea n p v ha hp hi =>
    exact (State.wf_congr (by simp) (by simp) (by simp)).trans (State.wf_storeBytes hs p n v)
  | fences hi => exact (State.wf_congr (by simp) (by simp) (by simp)).trans (State.wf_fence hs)
  | flushes hi => exact (State.wf_congr (by simp) (by simp) (by simp)).trans (State.wf_flush hs)

/-! ## Translation -/

/-- A rule covers accesses of its own mode only (R66). -/
theorem mode_of_ruleCovers {m : Mode} {k : AccessKind} {a : Word} {r : MmuRule}
    (h : ruleCovers m k a r = true) : r.mode = m := by
  simp only [ruleCovers, Bool.and_eq_true, beq_iff_eq] at h
  obtain ⟨⟨⟨hmode, -⟩, -⟩, -⟩ := h
  exact hmode

theorem find?_ruleCovers_filter_mode (l : List MmuRule) (m : Mode) (k : AccessKind) (a : Word) :
    (l.filter fun r => r.mode = m).find? (ruleCovers m k a) = l.find? (ruleCovers m k a) := by
  rw [List.find?_filter]
  refine congrArg (List.find? · l) (funext fun r => ?_)
  cases hr : ruleCovers m k a r
  · simp
  · simp [mode_of_ruleCovers hr]

/-- The identity MMU permits every access at its own address (R66). -/
theorem State.translate_identity {s : State} (h : s.cfg.mmu = .identity) (a : Word) (n : Size)
    (k : AccessKind) : s.translate a n k = .permitted a := by
  simp [State.translate, h, Mmu.identity, translateRules]

/-! ## A stored word and the loads that follow -/

theorem extract_byte1 (b3 b2 b1 b0 : Byte) :
    (b3 ++ b2 ++ b1 ++ b0 : Word).extractLsb' 8 8 = b1 := by
  apply BitVec.eq_of_getLsbD_eq
  intro i hi
  have h0 : ¬ 8 + i < 8 := by omega
  simp only [BitVec.getLsbD_extractLsb', BitVec.getLsbD_append, h0, Nat.add_sub_cancel_left, hi,
    decide_true, Bool.true_and, if_true, if_false]

theorem extract_upperHalf (b3 b2 b1 b0 : Byte) :
    (b3 ++ b2 ++ b1 ++ b0 : Word).extractLsb' 16 16 = b3 ++ b2 := by
  apply BitVec.eq_of_getLsbD_eq
  intro i hi
  have h0 : ¬ 16 + i < 8 := by omega
  have h1 : ¬ 16 + i - 8 < 8 := by omega
  have h2 : 16 + i - 8 - 8 = i := by omega
  simp only [BitVec.getLsbD_extractLsb', BitVec.getLsbD_append, h0, h1, h2, hi, decide_true,
    Bool.true_and, if_false]

/-- The upper halfword of a little-endian word (R62). -/
theorem State.halfAt_add_two {s : State} (h : s.cfg.byteOrder = .little) (p : Word) :
    s.halfAt (p + 2) = (s.wordAt p).extractLsb' 16 16 := by
  have h2 : s.byteAt (p + 2) 0 = s.byteAt p 2 := by rw [State.byteAt, State.byteAt, add_zero]
  have h3 : s.byteAt (p + 2) 1 = s.byteAt p 3 := by
    rw [State.byteAt, State.byteAt, add_assoc, show (2 + 1 : Word) = 3 from rfl]
  simp only [State.halfAt, State.wordAt, h, h2, h3, extract_upperHalf]

/-- The second byte of a little-endian word (R62). -/
theorem State.byteAt_add_one {s : State} (h : s.cfg.byteOrder = .little) (p : Word) :
    s.byteAt (p + 1) 0 = (s.wordAt p).extractLsb' 8 8 := by
  have h1 : s.byteAt (p + 1) 0 = s.byteAt p 1 := by rw [State.byteAt, State.byteAt, add_zero]
  simp only [State.wordAt, h, h1, extract_byte1]

/-- A load of form C into a general register, under the identity MMU (R313 to R317). -/
theorem load_completes_identity {s : State} (h : s.cfg.mmu = .identity) {a : Word} {n : Size}
    (ha : a.toNat % sizeBytes n = 0) (ext : Word → Word) (e : Gpr) :
    ∃ t, load 6 n ext a (.gp e) s = .next t ∧ t.gprs.read e = ext (s.loadBytes a n) := by
  obtain ⟨t, ht, hg, -⟩ := load_completes (ext := ext) (d := .gp e) (evenPart_curPc_six s)
    ⟨.inl ha, State.translate_identity h a n .read⟩
  exact ⟨t, ht, (hg e).trans (if_pos rfl)⟩

theorem extract_zeroExtended {n : Nat} (hn : n ≤ 32) (x : BitVec n) :
    (x.setWidth 32).extractLsb' 0 n = x := by
  rw [BitVec.extractLsb'_setWidth_of_le (by omega), BitVec.extractLsb'_eq_self]

theorem zext8_setWidth (b : Byte) : zext8 (b.setWidth 32) = b.setWidth 32 :=
  congrArg (BitVec.setWidth 32) (extract_zeroExtended (by decide) b)

theorem zext16_setWidth (h : Half) : zext16 (h.setWidth 32) = h.setWidth 32 :=
  congrArg (BitVec.setWidth 32) (extract_zeroExtended (by decide) h)

/-- Under the identity MMU a store that answers a next state was issued at its own address (R66). -/
theorem store_next_identity {s t : State} (h : s.cfg.mmu = .identity) {len ea v : Word} {n : Size}
    (hx : store len n ea v s = .next t) : t = (s.storeBytes ea n v).advance len := by
  have htr : s.translate ea n .write = .permitted ea := State.translate_identity h ea n .write
  rcases store_next hx with ⟨p, hp, rfl⟩ | ⟨x, he, -⟩
  · obtain ⟨-, hp⟩ := State.dataAddr_ok.1 hp
    cases htr.symm.trans hp
    rfl
  · obtain ⟨⟨-, hr⟩, -⟩ := State.dataAddr_raises.1 he
    cases htr.symm.trans hr

/-! ## States that agree but for what memory holds -/

/-- Two outcomes are next states in the relation `R`, or the same stop. -/
def OutcomesRelated (R : State → State → Prop) (r q : Result) : Prop :=
  match r, q with
  | .next s, .next t => R s t
  | .fault e, .fault f => e = f
  | .refused e, .refused f => e = f
  | _, _ => False

theorem sameOutcome_iff (r q : Result) : SameOutcome r q ↔ OutcomesRelated SameForCore r q := by
  cases r <;> cases q <;> exact Iff.rfl

/-- Of two outcomes related by the graph of `f`, one is the other with its next state changed by
`f`. -/
theorem eq_mapNext_of_related {f : State → State} {r q : Result}
    (h : OutcomesRelated (fun s t => t = f s) r q) : q = mapNext f r := by
  cases r <;> cases q <;> simp_all [OutcomesRelated, mapNext]

/-- `R` relates only states whose registers, program counters, mode and parameters agree, and
writing these keeps it: a relation between what the two states hold in memory. -/
structure RegistersAgree (R : State → State → Prop) : Prop where
  gprs : ∀ {s t}, R s t → t.gprs = s.gprs
  tpc : ∀ {s t}, R s t → t.tpc = s.tpc
  spc : ∀ {s t}, R s t → t.spc = s.spc
  mode : ∀ {s t}, R s t → t.mode = s.mode
  cfg : ∀ {s t}, R s t → t.cfg = s.cfg
  setGpr : ∀ {s t}, R s t → ∀ g v, R (s.setGpr g v) (t.setGpr g v)
  setTpc : ∀ {s t}, R s t → ∀ v, R (s.setTpc v) (t.setTpc v)
  setSpc : ∀ {s t}, R s t → ∀ v, R (s.setSpc v) (t.setSpc v)
  setMode : ∀ {s t}, R s t → ∀ m, R (s.setMode m) (t.setMode m)

namespace RegistersAgree
variable {R : State → State → Prop} (hR : RegistersAgree R) {s t : State} (h : R s t)
include hR h

theorem curPc : t.curPc = s.curPc := by
  rw [State.curPc, State.curPc, hR.mode h, hR.tpc h, hR.spc h]

theorem jump (v : Word) : R (s.jump v) (t.jump v) := by
  rw [State.jump, State.jump, hR.mode h]
  cases s.mode
  · exact hR.setTpc h v
  · exact hR.setSpc h v

theorem advance (len : Word) : R (s.advance len) (t.advance len) := by
  rw [State.advance, State.advance, hR.curPc h]
  exact hR.jump h _

theorem pcRead : t.pcRead = s.pcRead := by
  rw [State.pcRead, State.pcRead, hR.curPc h, hR.cfg h]

theorem readX (r : Reg) : t.readX r = s.readX r := by
  cases r with
  | pc => exact hR.pcRead h
  | gp g => exact congrArg (Gprs.read · g) (hR.gprs h)

theorem readTpc : t.readTpc = s.readTpc := by
  rw [State.readTpc, State.readTpc, hR.mode h, hR.pcRead h, hR.tpc h]

theorem readXt (r : Reg) : t.readXt r = s.readXt r := by
  cases r with
  | pc => exact hR.readTpc h
  | gp g => exact hR.readX h (.gp g)

theorem writeX (len : Word) (d : Reg) (v : Word) : R (s.writeX len d v) (t.writeX len d v) := by
  cases d with
  | pc => exact hR.jump h v
  | gp g => exact hR.advance (hR.setGpr h g v) len

theorem writeTpc (len v : Word) : R (s.writeTpc len v) (t.writeTpc len v) := by
  rw [State.writeTpc, State.writeTpc, hR.mode h]
  cases s.mode
  · exact hR.jump h v
  · exact hR.advance (hR.setTpc h v) len

theorem writeXt (len : Word) (d : Reg) (v : Word) :
    R (s.writeXt len d v) (t.writeXt len d v) := by
  cases d with
  | pc => exact hR.writeTpc h len v
  | gp g => exact hR.writeX h len (.gp g) v

theorem branchTarget (off : PcBits) (rel : Bool) :
    t.branchTarget off rel = s.branchTarget off rel := by
  have hb : t.branchBase = s.branchBase := by
    rw [State.branchBase, State.branchBase, hR.cfg h, hR.pcRead h, hR.curPc h]
  rw [State.branchTarget, State.branchTarget, hb]

theorem eaD (a : Reg) (imm : Word) : t.eaD a imm = s.eaD a imm := by
  rw [State.eaD, State.eaD, hR.readX h]

/-! Each shared shape of the meanings keeps the relation, once the operands that it is given are the
same in both states. -/

theorem raise (x : Exc) : OutcomesRelated R (s.raise x) (t.raise x) := by
  rw [State.raise, State.raise, hR.mode h]
  cases s.mode
  · exact hR.setMode h .scheduler
  · rfl

theorem stop (e : AccessStop) : OutcomesRelated R (s.stop e) (t.stop e) := by
  cases e with
  | raises x => exact hR.raise h x
  | faults f => rfl

theorem next_writeX {len : Word} {d : Reg} {v w : Word} (hv : w = v) :
    OutcomesRelated R (.next (s.writeX len d v)) (.next (t.writeX len d w)) := by
  rw [hv]
  exact hR.writeX h len d v

theorem next_writeXt {len : Word} {d : Reg} {v w : Word} (hv : w = v) :
    OutcomesRelated R (.next (s.writeXt len d v)) (.next (t.writeXt len d w)) := by
  rw [hv]
  exact hR.writeXt h len d v

theorem branch {c e : Bool} {off : PcBits} {rel : Bool} (hc : e = c) :
    OutcomesRelated R (branch c off rel s) (branch e off rel t) := by
  rw [hc, branch_next, branch_next, hR.branchTarget h]
  cases c
  · exact hR.advance h 6
  · exact hR.jump h _

end RegistersAgree

/-- An access does the same in both states: it stops alike, reads the same value, and the stores
that it can issue keep the relation. -/
structure AccessesAlike (R : State → State → Prop) (s t : State) (ea : Word) (n : Size)
    (k : AccessKind) : Prop where
  dataAddr : t.dataAddr ea n k = s.dataAddr ea n k
  loadBytes : ∀ p, t.loadBytes p n = s.loadBytes p n
  storeBytes : ∀ p v, R (s.storeBytes p n v) (t.storeBytes p n v)

theorem AccessesAlike.memRead {R : State → State → Prop} {s t : State} {a : Word} {n : Size}
    (hm : AccessesAlike R s t a n .read) : t.memRead a n = s.memRead a n := by
  rw [State.memRead, State.memRead, hm.dataAddr]
  cases s.dataAddr a n .read with
  | error e => rfl
  | ok p => exact congrArg Except.ok (hm.loadBytes p)

namespace RegistersAgree
variable {R : State → State → Prop} (hR : RegistersAgree R) {s t : State} (h : R s t)
  {len : Word} {n : Size} {a b : Word}
include hR h

theorem load {ext : Word → Word} {d : Reg} (ha : b = a) (hm : AccessesAlike R s t a n .read) :
    OutcomesRelated R (load len n ext a d s) (load len n ext b d t) := by
  rw [ha, Machine.load, Machine.load, hm.memRead]
  cases s.memRead a n with
  | error e => exact hR.stop h e
  | ok v => exact hR.writeX h len d (ext v)

theorem loadTpc {ext : Word → Word} (ha : b = a) (hm : AccessesAlike R s t a n .read) :
    OutcomesRelated R (loadTpc len n ext a s) (loadTpc len n ext b t) := by
  rw [ha, Machine.loadTpc, Machine.loadTpc, hm.memRead]
  cases s.memRead a n with
  | error e => exact hR.stop h e
  | ok v => exact hR.writeTpc h len (ext v)

theorem store {v w : Word} (ha : b = a) (hv : w = v) (hm : AccessesAlike R s t a n .write) :
    OutcomesRelated R (store len n a v s) (store len n b w t) := by
  rw [ha, hv, Machine.store, Machine.store, State.memWrite, State.memWrite, hm.dataAddr]
  cases s.dataAddr a n .write with
  | error e => exact hR.stop h e
  | ok p => exact hR.advance (hm.storeBytes p v) len

end RegistersAgree

/-- An instruction keeps the relation, as far as its data access and the fences do: whatever else it
does goes through registers, program counters, the mode and the parameters (R61). -/
theorem exec_related {R : State → State → Prop} (hR : RegistersAgree R) {i : Instr}
    {s t : State} (h : R s t)
    (ha : ∀ ea n k, dataAccess i s = some (ea, n, k) → AccessesAlike R s t ea n k)
    (hfence : i = .fence → R s.fence t.fence) (hflush : i = .wfence → R s.flush t.flush) :
    OutcomesRelated R (exec i s) (exec i t) := by
  cases i
  case fill | brk | syscall => exact hR.setMode (hR.advance h 2) .scheduler
  case stu => exact hR.setMode (hR.advance h 2) .task
  case fence => exact hR.advance (hfence rfl) 2
  case wfence => exact hR.advance (hflush rfl) 2
  case xmov a d => exact hR.next_writeXt h (hR.readXt h a)
  case lit d imm => exact hR.next_writeXt h rfl
  case ldsbA | ldubA | ldshA | lduhA | ldwA =>
    exact hR.load h (hR.readX h _) (ha _ _ _ rfl)
  case ldsbC | ldubC | ldshC | lduhC | ldwC => exact hR.load h rfl (ha _ _ _ rfl)
  case ldsbD | ldubD | ldshD | lduhD | ldwD =>
    exact hR.load h (hR.eaD h _ _) (ha _ _ _ rfl)
  case ldsbCTpc | ldubCTpc | ldshCTpc | lduhCTpc | ldwCTpc =>
    exact hR.loadTpc h rfl (ha _ _ _ rfl)
  case ldsbDTpc | ldubDTpc | ldshDTpc | lduhDTpc | ldwDTpc =>
    exact hR.loadTpc h (hR.eaD h _ _) (ha _ _ _ rfl)
  case stbA | sthA | stwA =>
    exact hR.store h (hR.readX h _) (hR.readX h _) (ha _ _ _ rfl)
  case stbC | sthC | stwC => exact hR.store h rfl (hR.readX h _) (ha _ _ _ rfl)
  case stbD | sthD | stwD =>
    exact hR.store h (hR.eaD h _ _) (hR.readX h _) (ha _ _ _ rfl)
  case stbCTpc | sthCTpc | stwCTpc => exact hR.store h rfl (hR.readTpc h) (ha _ _ _ rfl)
  case stbDTpc | sthDTpc | stwDTpc =>
    exact hR.store h (hR.eaD h _ _) (hR.readTpc h) (ha _ _ _ rfl)
  case beqz | bnez | bltz | bgez | bgtz | blez | beq | bne | blts | bges | bltu | bgeu | bflt
      | bfge | bbs | bbc =>
    exact hR.branch h (by simp only [hR.readX h])
  -- What is left raises SII or writes `x[d]`, with operands that are reads of `x[]`.
  all_goals first
    | exact hR.raise h .sii
    | exact hR.next_writeX h (by simp only [hR.readX h, hR.cfg h])

/-! ## Instructions that reach no memory -/

/-- The state with other contents of memory and of the write queue. -/
def State.withMemory (m : Memory) (q : List PendingStore) (s : State) : State :=
  { s with mem := m, writeQueue := q }

theorem registersAgree_withMemory (m : Memory) (q : List PendingStore) :
    RegistersAgree fun s t => t = s.withMemory m q := by
  constructor <;> (rintro s t rfl; intros; rfl)

/-- The fences change no byte that the core sees (R75). -/
theorem exec_fence_readByte {i : Instr} (hi : i = .fence ∨ i = .wfence) {s t : State}
    (h : exec i s = .next t) (a : Nat) : t.readByte a = s.readByte a := by
  rcases hi with rfl | rfl <;> cases h <;> exact State.readByte_congr (State.view_advance 2 _) a

/-! ## States that the core cannot tell apart -/

theorem registersAgree_sameForCore : RegistersAgree SameForCore where
  gprs := fun ⟨hg, _⟩ => hg
  tpc := fun ⟨_, ht, _⟩ => ht
  spc := fun ⟨_, _, hs, _⟩ => hs
  mode := fun ⟨_, _, _, hm, _⟩ => hm
  cfg := fun ⟨_, _, _, _, _, _, _, hc⟩ => hc
  setGpr := by
    rintro s t ⟨hg, ht, hs, hm, hv, hst, hi, hc⟩ g v
    exact ⟨congrArg (Gprs.write · g v) hg, ht, hs, hm, hv, hst, hi, hc⟩
  setTpc := by
    rintro s t ⟨hg, -, hs, hm, hv, hst, hi, hc⟩ v
    exact ⟨hg, rfl, hs, hm, hv, hst, hi, hc⟩
  setSpc := by
    rintro s t ⟨hg, ht, -, hm, hv, hst, hi, hc⟩ v
    exact ⟨hg, ht, rfl, hm, hv, hst, hi, hc⟩
  setMode := by
    rintro s t ⟨hg, ht, hs, -, hv, hst, hi, hc⟩ m
    exact ⟨hg, ht, hs, rfl, hv, hst, hi, hc⟩

namespace SameForCore
section
variable {s t : State} (h : SameForCore s t)
include h

theorem fence : SameForCore s.fence t.fence := by
  obtain ⟨hg, ht, hs, hm, hv, -, hi, hc⟩ := h
  exact ⟨hg, ht, hs, hm, hv, rfl, hi, hc⟩

theorem flush : SameForCore s.flush t.flush := h

/-- The boundary performs stores, which the core does not see, and uses up one level (R74). -/
theorem boundary : SameForCore s.boundary t.boundary := by
  obtain ⟨hg, ht, hs, hm, hv, hst, hi, hc⟩ := h
  exact ⟨hg, ht, hs, hm, by simp [hv], hst, congrArg List.tail hi, hc⟩

theorem storeBytes (p : Word) (n : Size) (v : Word) :
    SameForCore (s.storeBytes p n v) (t.storeBytes p n v) := by
  obtain ⟨hg, ht, hs, hm, hv, hst, hi, hc⟩ := h
  exact ⟨hg, ht, hs, hm, by simp [hv, hc], by simp [hst], hi, hc⟩

theorem interrupted : t.interrupted = s.interrupted := by
  obtain ⟨-, -, -, hm, -, -, hi, -⟩ := h
  simp [State.interrupted, State.irqLevel, hm, hi]

theorem readByte : t.readByte = s.readByte := by
  obtain ⟨-, -, -, -, hv, -, -, -⟩ := h
  exact funext (State.readByte_congr hv)

theorem stale : t.stale = s.stale := by
  obtain ⟨-, -, -, -, -, hst, -, -⟩ := h
  exact hst

theorem loadBytes (p : Word) (n : Size) : t.loadBytes p n = s.loadBytes p n := by
  rw [State.loadBytes, State.loadBytes, registersAgree_sameForCore.cfg h, h.readByte]

end

section
variable {s t : State} (h : SameForCore s t) {l : List MmuRule} (hl : s.cfg.mmu = .rules l)
include h hl

/-- An MMU given as rules looks at no memory (R66). -/
theorem translate (a : Word) (n : Size) (k : AccessKind) :
    t.translate a n k = s.translate a n k := by
  obtain ⟨-, -, -, hm, -, -, -, hc⟩ := h
  simp only [State.translate, hc, hl, hm]

theorem dataAddr (a : Word) (n : Size) (k : AccessKind) :
    t.dataAddr a n k = s.dataAddr a n k := by
  rw [State.dataAddr, State.dataAddr, registersAgree_sameForCore.cfg h, h.translate hl]

theorem accessesAlike (ea : Word) (n : Size) (k : AccessKind) :
    AccessesAlike SameForCore s t ea n k :=
  ⟨h.dataAddr hl ea n k, (h.loadBytes · n), (h.storeBytes · n)⟩

theorem fetchHalf (a : Word) : t.fetchHalf a = s.fetchHalf a := by
  rw [State.fetchHalf, State.fetchHalf, h.translate hl, h.readByte, h.stale,
    registersAgree_sameForCore.cfg h]

theorem fetchInstr : t.fetchInstr = s.fetchInstr := by
  simp only [State.fetchInstr, registersAgree_sameForCore.curPc h, h.fetchHalf hl]

theorem exec (i : Instr) : OutcomesRelated SameForCore (exec i s) (exec i t) :=
  exec_related registersAgree_sameForCore h (fun ea n k _ => h.accessesAlike hl ea n k)
    (fun _ => h.fence) (fun _ => h.flush)

theorem runInstr : OutcomesRelated SameForCore s.runInstr t.runInstr := by
  rw [State.runInstr, State.runInstr, h.fetchInstr hl]
  cases s.fetchInstr with
  | error e => exact registersAgree_sameForCore.stop h e
  | ok i => exact h.exec hl i

end
end SameForCore

/-! ## The obligations -/

/-- Settles O51: the boundary keeps the form, and so does each of the three things that can follow
it in a step. -/
theorem stepKeepsForm : Obligations.StepKeepsForm := by
  intro s t hs h
  have hb : s.boundary.wf = true := State.wf_boundary hs
  rcases step_next h with ⟨-, rfl⟩ | ⟨-, i, -, he⟩ | ⟨-, -, -, rfl⟩
  · exact hb
  · exact (exec_next he).keepsForm hb
  · exact hb

/-- Settles O58: the boundary keeps the relation, and so does each of the three things that can
follow it in a step. -/
theorem drainsAreInvisible : Obligations.DrainsAreInvisible := by
  intro s t l hl h
  rw [sameOutcome_iff, step, step, h.interrupted]
  cases s.interrupted
  · exact h.boundary.runInstr hl
  · exact registersAgree_sameForCore.setMode h.boundary .scheduler

/-- Settles O40: the access raises MemFault, whose entry changes the mode alone. -/
theorem refusedDataAccess : Obligations.RefusedDataAccess := by
  intro i s ea n k ha hr
  have hx : exec i s = s.raise (.memFault ea) :=
    exec_of_dataAddr_error ha (State.dataAddr_raises.2 ⟨hr, rfl⟩)
  rw [hx]
  exact ⟨fun hm => ⟨_, State.raise_task _ hm, OnlyMode.setMode s .scheduler⟩,
    State.raise_scheduler _⟩

/-- Settles O41: the alignment check is the one source of the fault, and a byte passes it. -/
theorem misalignedAccess : Obligations.MisalignedAccess := by
  intro i s ea n k ha hc
  refine ⟨⟨fun hu => ?_, misaligned_of_exec ha⟩, fun hn hf => misaligned_of_exec ha hf ?_⟩
  · exact exec_of_dataAddr_error ha (State.dataAddr_faults.2 ⟨⟨hu, hc⟩, rfl⟩)
  · rw [hn]
    exact Nat.mod_one _

/-- Settles O42: the store is in the core's view, which performing queued stores does not change. -/
theorem ownStoresAreSeen : Obligations.OwnStoresAreSeen := by
  intro s t d e addr j hlittle hmmu hal hst
  obtain rfl : t = (s.storeBytes addr .word (s.readX d)).advance 6 := store_next_identity hmmu hst
  generalize hu : ((s.storeBytes addr .word (s.readX d)).advance 6).drain j = u
  have hcfg : u.cfg = s.cfg := by simp [← hu]
  have hview : u.view = (s.storeBytes addr .word (s.readX d)).view := by simp [← hu]
  have hw : u.wordAt addr = s.readX d :=
    (State.wordAt_congr hview hcfg addr).trans (State.wordAt_storeBytes s addr _)
  have hl : u.cfg.byteOrder = .little := hcfg ▸ hlittle
  have hm : u.cfg.mmu = .identity := hcfg ▸ hmmu
  have hal2 : (addr + 2).toNat % 2 = 0 := by
    rw [show (addr + 2).toNat = (addr.toNat + 2) % 2 ^ 32 from BitVec.toNat_add addr 2]
    omega
  have hal1 : (addr + 1).toNat % 1 = 0 := Nat.mod_one _
  refine ⟨?_, ?_, ?_⟩
  · obtain ⟨v, hv, hr⟩ := load_completes_identity hm (n := .word) hal id e
    exact ⟨v, hv, by rw [hr, State.loadBytes_word, hw]; rfl⟩
  · obtain ⟨v, hv, hr⟩ := load_completes_identity hm (n := .half) hal2 zext16 e
    exact ⟨v, hv, by
      rw [hr, State.loadBytes_half, State.halfAt_add_two hl, hw, zext16_setWidth]⟩
  · obtain ⟨v, hv, hr⟩ := load_completes_identity hm (n := .byte) hal1 zext8 e
    exact ⟨v, hv, by
      rw [hr, State.loadBytes_byte, State.byteAt_add_one hl, hw, zext8_setWidth]⟩

/-- Settles O47: the stop of halfword `k` is the stop of the step. -/
theorem fetchStops : Obligations.FetchStops := by
  intro s i k h hw hn hk hb
  have hstep : ∀ e, s.boundary.fetchHalf (s.halfAddr k) = .error e →
      step s = s.boundary.stop e :=
    fun e he => step_of_fetchInstr_error hn (State.fetchInstr_of_fetches_error hw hk
      (fun j g hj hg => State.fetchHalf_ok.2 (hb j g hj hg)) he)
  refine ⟨fun hr => ?_, fun p hp hc hs => hstep _ (State.fetchHalf_stale hp hc hs)⟩
  have hx : step s = s.boundary.raise (.memFault (s.halfAddr k)) :=
    hstep _ (State.fetchHalf_refused hr)
  rw [hx]
  refine ⟨fun hm => ⟨_, State.raise_task _ hm, rfl, rfl, rfl, rfl, ?_⟩,
    fun hm => State.raise_scheduler _ (s := s.boundary) hm⟩
  exact State.readByte_congr ((State.view_setMode _ _).trans s.view_boundary)

/-- Settles O48: the first rule that covers the access is looked for among the rules of the current
mode. -/
theorem translationFollowsMode : Obligations.TranslationFollowsMode := by
  intro s t l a n k hs hm ht
  refine ⟨?_, fun hnone => ?_⟩
  · simp only [State.translate, hs, ht, hm, translateRules, find?_ruleCovers_filter_mode]
  · have hf : l.find? (ruleCovers s.mode k a) = none :=
      List.find?_eq_none.2 fun r hr hc => hnone r hr (mode_of_ruleCovers hc)
    simp only [State.translate, hs, translateRules, hf]

/-- Settles O54: the first clause is `exec_related` at the graph of `State.withMemory`, where no
access and no fence is left to look at. -/
theorem onlyLoadsAndStoresReachMemory : Obligations.OnlyLoadsAndStoresReachMemory := by
  intro i s
  refine ⟨fun hn hfence hwfence m q => ?_, fun hi t ht => exec_fence_readByte hi ht⟩
  refine eq_mapNext_of_related (f := State.withMemory m q)
    (exec_related (registersAgree_withMemory m q) rfl (fun ea n k ha => ?_)
      (absurd · hfence) (absurd · hwfence))
  cases hn.symm.trans ha

/-- Settles O46: the halfwords are fetched as the instruction. -/
theorem stepRunsInstruction : Obligations.StepRunsInstruction := by
  intro s i hw hn hf
  exact step_of_fetchInstr_ok hn
    (State.fetchInstr_of_fetches hw fun k h hk => State.fetchHalf_ok.2 (hf k h hk))

end Sys2Proof.Machine
end

section
/-!
PROOFS. The family 30_encoding.md: decoding and encoding are inverse (R100 to R108), the length rule
(R92), sample words of each format (R96) and the pseudo-instructions (R114). From an instruction to
its words and back, `selects_decodeInst` says what INST selects. From INST to its instruction,
`spells_decodeInst` says what the decoder's answer owes to the fields, one lemma for each group of
R100.
-/

namespace Sys2Proof

/-! ## Decoding what was encoded -/

theorem instLength_eq_six_or_two (inst : Half) : instLength inst = 6 ∨ instLength inst = 2 :=
  ite_eq_or_eq _ _ _

/-- INST comes first, then as many halfwords as the length rule asks for (R92, R93). -/
theorem encode_eq_cons (i : Instr) :
    ∃ tail, encode i = encodeInst i :: tail ∧ tail.length = instLength (encodeInst i) / 2 - 1 := by
  unfold encode
  split
  · next h => exact ⟨_, rfl, by rw [h]; rfl⟩
  · next h =>
    have h2 := (instLength_eq_six_or_two (encodeInst i)).resolve_left h
    exact ⟨[], rfl, by rw [h2]; rfl⟩

/-- Decoding the words of a well-formed instruction gives it and leaves what follows (R100). -/
theorem decode_encode_append {i : Instr} (hw : i.wf = true) (rest : List Half) :
    decode (encode i ++ rest) = .ok (i, rest) := by
  have hsel := selects_decodeInst hw
  generalize hd : decodeInst (encodeInst i) = x at hsel
  cases hsel with
  | short hr he => simp only [he, List.cons_append, List.nil_append, decode, hd]
  | reserved hr =>
    obtain ⟨tail, he, hl⟩ := encode_eq_cons i
    simp only [he, List.cons_append, decode, hd, List.drop_left' hl]
  | long f hr hf he =>
    simp only [he, List.cons_append, List.nil_append, decode, hd, fieldI_halves, hf]

theorem decode_of_encode {i : Instr} {hs : List Half} (he : encode i = hs) (hw : i.wf = true) :
    decode hs = .ok (i, []) := by
  have h := decode_encode_append hw []
  rwa [List.append_nil, he] at h

/-- Decoding from bytes is decoding from the halfwords they hold (R62, R65). -/
theorem decodeBytes_flatMap (o : ByteOrder) (hs : List Half) :
    decodeBytes o (hs.flatMap (bytesOfHalf o)) = decode hs := by
  rw [decodeBytes, halvesOfBytes_flatMap]

/-! ## The length of the words -/

theorem length_encode (i : Instr) : 2 * (encode i).length = instLength (encodeInst i) := by
  obtain ⟨tail, he, hl⟩ := encode_eq_cons i
  have h := instLength_eq_six_or_two (encodeInst i)
  rw [he, List.length_cons, hl]
  omega

/-! ## What INST spells -/

/-- `i` is a well-formed instruction with the fields `c`, `b`, `a`, `d`, and its row has length
`n` (R92, R96). -/
structure InRow (c b a d : Nib) (n : Nat) (i : Instr) : Prop where
  fields : i.fields = (c, b, a, d)
  wf : i.wf = true
  length : i.length = n

/-- What the decoder's answer owes to the fields of INST and to the length `n` that they ask for: a
well-formed instruction with these fields and of that length, and, where it waits for FIELD_I, with
the FIELD_I that comes (R92, R100). -/
inductive Spells (c b a d : Nib) : Nat → Decoded → Prop
  | short {i : Instr} (h : InRow c b a d 2 i) : Spells c b a d 2 (.short i)
  | reserved {n : Nat} {i : Instr} (h : InRow c b a d n i) (hr : i.isReserved = true) :
      Spells c b a d n (.reserved i)
  | long {f : Word → Instr} (h : ∀ v, InRow c b a d 6 (f v)) (hi : ∀ v, (f v).fieldI = v) :
      Spells c b a d 6 (.long f)

namespace Spells

theorem branch {c b a d : Nib} {mk : PcBits → Bool → Instr}
    (h : ∀ off rel, InRow c b a d 6 (mk off rel))
    (hi : ∀ off rel, (mk off rel).fieldI = branchField off rel) :
    Spells c b a d 6 (.branch mk) :=
  .long (fun _ => h _ _) fun v => (hi _ _).trans (branchField_parts v)

section
variable {c b a d : Nib} {n : Nat} {x : Decoded} (h : Spells c b a d n x)
include h

theorem inRow_instr (v : Word) : InRow c b a d n (x.instr v) := by
  cases h with
  | short h | reserved h => exact h
  | long h => exact h v

theorem fieldI_instr {v : Word} (hr : (x.instr v).isReserved = false)
    (hl : (x.instr v).length = 6) : (x.instr v).fieldI = v := by
  cases h with
  | short h => cases h.length.symm.trans hl
  | reserved _ hres => cases hres.symm.trans hr
  | long _ hi => exact hi v

theorem length_of_long {f : Word → Instr} (hx : x = .long f) : n = 6 := by
  cases h with
  | short | reserved => cases hx
  | long => rfl

end
end Spells

/-! ## The groups of R100 -/

/-- A field is 0xf or names a register (R31, R33). -/
theorem Nib.eq_xf_or_reg (n : Nib) : n = .xf ∨ ∃ r : Reg, n = r.nib :=
  or_iff_not_imp_left.2 exists_reg_of_ne_xf

theorem spells_decodeXorHole (r : Reg) : Spells .x0 r.nib r.nib .x0 2 (decodeXorHole r) := by
  cases r with
  | pc => exact .short ⟨rfl, rfl, rfl⟩
  | gp g =>
    cases g
    case r1 | r2 | r3 | rd | re => exact .short ⟨rfl, rfl, rfl⟩
    case r4 | r5 | r6 | r7 | r8 | r9 | ra | rb | rc => exact .reserved ⟨rfl, rfl, rfl⟩ rfl

section
variable {c : Nib} (hc : c ≠ .xf)
include hc

theorem spells_decodeCBAD (b a d : Reg) :
    Spells c b.nib a.nib d.nib 2 (decodeCBAD c b a d) := by
  cases c
  case x0 =>
    by_cases h : d = .pc ∧ b = a
    · rw [decodeCBAD, if_pos h]
      obtain ⟨rfl, rfl⟩ := h
      exact spells_decodeXorHole b
    · rw [decodeCBAD, if_neg h]
      exact .short ⟨rfl, decide_eq_true h, rfl⟩
  case x1 =>
    by_cases h : b = .pc ∧ a = .pc ∧ d = .pc
    · rw [decodeCBAD, if_pos h]
      obtain ⟨rfl, rfl, rfl⟩ := h
      exact .short ⟨rfl, rfl, rfl⟩
    · rw [decodeCBAD, if_neg h]
      exact .short ⟨rfl, decide_eq_true h, rfl⟩
  case x2 | x3 | x4 | x5 | x6 | x7 => exact .short ⟨rfl, rfl, rfl⟩
  case x8 => cases b <;> exact .short ⟨rfl, rfl, rfl⟩
  case x9 | xa | xb | xc | xd | xe =>
    cases d with
    | pc => exact .reserved ⟨rfl, rfl, rfl⟩ rfl
    | gp d =>
      cases b with
      | gp b => cases a <;> exact .short ⟨rfl, rfl, rfl⟩
      | pc =>
        cases a with
        | pc => exact .reserved ⟨rfl, rfl, rfl⟩ rfl
        | gp a => exact .short ⟨rfl, rfl, rfl⟩
  case xf => exact absurd rfl hc

theorem spells_decodeCBD (b d : Reg) : Spells c b.nib .xf d.nib 6 (decodeCBD c b d) := by
  cases c
  case xc | xd | xe =>
    cases d with
    | pc => exact .reserved ⟨rfl, rfl, rfl⟩ rfl
    | gp d =>
      cases b with
      | pc => exact .reserved ⟨rfl, rfl, rfl⟩ rfl
      | gp b => exact .long (fun _ => ⟨rfl, rfl, rfl⟩) fun _ => rfl
  case xf => exact absurd rfl hc
  all_goals exact .long (fun _ => ⟨rfl, rfl, rfl⟩) fun _ => rfl

theorem spells_decodeCAD (a d : Reg) : Spells c .xf a.nib d.nib 6 (decodeCAD c a d) := by
  cases c
  case x3 | x5 | x6 | x7 => exact .long (fun _ => ⟨rfl, rfl, rfl⟩) fun _ => rfl
  case xd =>
    cases d with
    | pc => exact .reserved ⟨rfl, rfl, rfl⟩ rfl
    | gp d =>
      cases a with
      | pc => exact .reserved ⟨rfl, rfl, rfl⟩ rfl
      | gp a => exact .long (fun _ => ⟨rfl, rfl, rfl⟩) fun _ => rfl
  case xf => exact absurd rfl hc
  all_goals exact .reserved ⟨rfl, rfl, rfl⟩ rfl

theorem spells_decodeCBA (b a : Reg) : Spells c b.nib a.nib .xf 6 (decodeCBA c b a) := by
  cases c
  case x0 =>
    cases a with
    | pc => exact .branch (fun _ _ => ⟨rfl, rfl, rfl⟩) fun _ _ => rfl
    | gp g =>
      cases g
      case r1 | r2 | r3 | r4 | r5 =>
        exact .branch (fun _ _ => ⟨rfl, rfl, rfl⟩) fun _ _ => rfl
      all_goals exact .reserved ⟨rfl, rfl, rfl⟩ rfl
  case x1 | x2 | x3 | x4 | x5 | x6 | xd | xe =>
    exact .branch (fun _ _ => ⟨rfl, rfl, rfl⟩) fun _ _ => rfl
  case xf => exact absurd rfl hc
  all_goals exact .reserved ⟨rfl, rfl, rfl⟩ rfl

theorem Nib.val_le_of_ne_xf : c.val ≤ 14 := by
  cases c
  case xf => exact absurd rfl hc
  all_goals simp [Nib.val]

theorem spells_bbs (a : Reg) : Spells c .xf a.nib .xf 6 (.branch (.bbs c a)) :=
  .branch (fun _ _ => ⟨rfl, decide_eq_true (Nib.val_le_of_ne_xf hc), rfl⟩) fun _ _ => rfl

theorem spells_bbc (b : Reg) : Spells c b.nib .xf .xf 6 (.branch (.bbc c b)) :=
  .branch (fun _ _ => ⟨rfl, decide_eq_true (Nib.val_le_of_ne_xf hc), rfl⟩) fun _ _ => rfl

theorem spells_siiCOnly : Spells c .xf .xf .xf 6 (.reserved (.siiCOnly c)) :=
  .reserved ⟨rfl, decide_eq_true (Nib.val_le_of_ne_xf hc), rfl⟩ rfl

theorem spells_decodeCD (d : Reg) : Spells c .xf .xf d.nib 6 (decodeCD c d) := by
  cases c
  case x0 | x1 => exact .long (fun _ => ⟨rfl, rfl, rfl⟩) fun _ => rfl
  case xf => exact absurd rfl hc
  all_goals exact .reserved ⟨rfl, rfl, rfl⟩ rfl

end

/-- Load/store form A (R106): FIELD_A or FIELD_D = 0xf makes it long and reserved (R330). -/
theorem spells_decodeLsA {b : Nib} (hb : b.val ≤ 7) {mk : Reg → Reg → Instr}
    (hmk : ∀ a d : Reg, Spells .xf b a.nib d.nib 2 (.short (mk a d))) (a d : Nib) :
    Spells .xf b a d (instLength (packInst .xf b a d)) (decodeLsA b a d mk) := by
  have hb8 : ¬ 8 ≤ b.val := by omega
  have hbf : b ≠ .xf := by rintro rfl; exact absurd hb (by decide)
  rw [instLength_pack]
  obtain rfl | ⟨d, rfl⟩ := d.eq_xf_or_reg
  · rw [decodeLsA_fieldD, if_pos (by simp)]
    exact .reserved ⟨rfl, decide_eq_true hb, rfl⟩ rfl
  obtain rfl | ⟨a, rfl⟩ := a.eq_xf_or_reg
  · rw [decodeLsA_fieldA, if_pos (by simp)]
    exact .reserved ⟨rfl, decide_eq_true hb, rfl⟩ rfl
  · rw [decodeLsA_reg, if_neg (by simp [hb8, hbf])]
    exact hmk a d

/-- Load/store forms C and D (R106): FIELD_A = 0xf is form C, FIELD_D = 0xf names TPC (R301). -/
theorem spells_decodeLsCD {b : Nib} {formC : Reg → Word → Instr} {formCTpc : Word → Instr}
    {formD : Reg → Reg → Word → Instr} {formDTpc : Reg → Word → Instr}
    (hC : ∀ d : Reg, Spells .xf b .xf d.nib 6 (.long (formC d)))
    (hCTpc : Spells .xf b .xf .xf 6 (.long formCTpc))
    (hD : ∀ a d : Reg, Spells .xf b a.nib d.nib 6 (.long (formD a d)))
    (hDTpc : ∀ a : Reg, Spells .xf b a.nib .xf 6 (.long (formDTpc a))) (a d : Nib) :
    Spells .xf b a d 6 (decodeLsCD a d formC formCTpc formD formDTpc) := by
  obtain rfl | ⟨a, rfl⟩ := a.eq_xf_or_reg <;> obtain rfl | ⟨d, rfl⟩ := d.eq_xf_or_reg
  · exact hCTpc
  · rw [decodeLsCD_formC]
    exact hC d
  · rw [decodeLsCD_formDTpc]
    exact hDTpc a
  · rw [decodeLsCD_formD]
    exact hD a d

/-- The load/store space, C = 0xf (R106). -/
theorem spells_decodeLs (b a d : Nib) :
    Spells .xf b a d (instLength (packInst .xf b a d)) (decodeLs b a d) := by
  cases b
  case x0 | x1 | x2 | x3 | x4 | x5 | x6 | x7 =>
    exact spells_decodeLsA (by decide) (fun _ _ => .short ⟨rfl, rfl, rfl⟩) a d
  all_goals
    rw [instLength_pack, if_pos (.inl ⟨rfl, by decide⟩)]
    exact spells_decodeLsCD
      (fun _ => .long (fun _ => ⟨rfl, rfl, rfl⟩) fun _ => rfl)
      (.long (fun _ => ⟨rfl, rfl, rfl⟩) fun _ => rfl)
      (fun _ _ => .long (fun _ => ⟨rfl, rfl, rfl⟩) fun _ => rfl)
      (fun _ => .long (fun _ => ⟨rfl, rfl, rfl⟩) fun _ => rfl) a d

/-- The decode procedure: the load/store space, then the group that the fields B, A and D select,
each naming a register or being 0xf (R100). -/
theorem spells_decodeFields (c b a d : Nib) :
    Spells c b a d (instLength (packInst c b a d)) (decodeFields c b a d) := by
  by_cases hc : c = .xf
  · subst hc
    exact spells_decodeLs b a d
  rw [instLength_pack]
  obtain rfl | ⟨b, rfl⟩ := b.eq_xf_or_reg <;> obtain rfl | ⟨a, rfl⟩ := a.eq_xf_or_reg <;>
    obtain rfl | ⟨d, rfl⟩ := d.eq_xf_or_reg
  · rw [decodeFields_c hc, if_pos (by simp)]
    exact spells_siiCOnly hc
  · rw [decodeFields_cd hc, if_pos (by simp)]
    exact spells_decodeCD hc d
  · rw [decodeFields_ca hc, if_pos (by simp)]
    exact spells_bbs hc a
  · rw [decodeFields_cad hc, if_pos (by simp)]
    exact spells_decodeCAD hc a d
  · rw [decodeFields_cb hc, if_pos (by simp)]
    exact spells_bbc hc b
  · rw [decodeFields_cbd hc, if_pos (by simp)]
    exact spells_decodeCBD hc b d
  · rw [decodeFields_cba hc, if_pos (by simp)]
    exact spells_decodeCBA hc b a
  · rw [decodeFields_cbad hc, if_neg (by simp [hc])]
    exact spells_decodeCBAD hc b a d

theorem spells_decodeInst (inst : Half) :
    Spells (fieldC inst) (fieldB inst) (fieldA inst) (fieldD inst) (instLength inst)
      (decodeInst inst) := by
  have h := spells_decodeFields (fieldC inst) (fieldB inst) (fieldA inst) (fieldD inst)
  rwa [packInst_fields] at h

/-- INST of the instruction that INST selects (R108). -/
theorem encodeInst_decodeWord (inst : Half) (fieldI : Word) :
    encodeInst (decodeWord inst fieldI) = inst := by
  have hrow : InRow _ _ _ _ _ (decodeWord inst fieldI) :=
    (spells_decodeInst inst).inRow_instr fieldI
  rw [encodeInst_eq, hrow.fields, packInst_fields]

/-! ## The obligations -/

/-- Settles O1: the words decode by what INST selects, and the bytes hold the words. -/
theorem decodeOfEncode : Obligations.DecodeOfEncode := by
  intro i rest hw
  have h := decode_encode_append hw rest
  exact ⟨h, fun o => (decodeBytes_flatMap o _).trans h⟩

/-- Settles O2: the fields that INST spells are those of INST. -/
theorem encodeOfDecode : Obligations.EncodeOfDecode := by
  intro inst fieldI
  have h := spells_decodeInst inst
  exact ⟨(h.inRow_instr fieldI).wf, encodeInst_decodeWord inst fieldI, h.fieldI_instr⟩

/-- Settles O4: the length is the one that `instLength` reads off INST. -/
theorem lengthFromInst : Obligations.LengthFromInst := by
  intro inst fieldI long
  have h := spells_decodeInst inst
  have hn : instLength inst = if long then 6 else 2 := rfl
  rw [← hn]
  refine ⟨(h.inRow_instr fieldI).length, ?_, fun hs f hf => ?_⟩
  · rw [length_encode, encodeInst_decodeWord]
  · rw [if_neg hs] at hn
    cases hn.symm.trans (h.length_of_long hf)

/-- Settles O5: each list is what `encode` gives for its instruction. -/
theorem sampleWords : Obligations.SampleWords := by
  refine ⟨?_, ?_, ?_, ?_, ?_, ?_, ?_, ?_, ?_, ?_, ?_, ?_⟩ <;>
    exact decode_of_encode (by decide) rfl

end Sys2Proof

namespace Sys2Proof.Machine

/-! ## The pseudo-instructions -/

theorem exec_xor_writesReg (b a d : Reg) (s : State) :
    ∃ t, exec (.xor b a d) s = .next t ∧ WritesReg s t 2 d (s.readX b ^^^ s.readX a) :=
  ⟨_, rfl, WritesReg.writeX s 2 d _ (evenPart_curPc_two s)⟩

theorem exec_or_writesReg (b a d : Reg) (s : State) :
    ∃ t, exec (.or b a d) s = .next t ∧ WritesReg s t 2 d (s.readX b ||| s.readX a) :=
  ⟨_, rfl, WritesReg.writeX s 2 d _ (evenPart_curPc_two s)⟩

/-- A write of a general register, without the advance (R12). -/
theorem WritesReg.keeps {s t : State} {len v : Word} {g : Gpr} (h : WritesReg s t len (.gp g) v) :
    (∀ r, t.gprs.read r = if r = g then v else s.gprs.read r) ∧ t.mode = s.mode
      ∧ KeepsOtherPc s t ∧ KeepsMemory s t ∧ KeepsEnvironment s t := by
  obtain ⟨hg, -, hrest⟩ := h
  exact ⟨fun r => by simpa [eq_comm] using hg r, hrest⟩

/-- A write of index 0 is a jump (R12, R35). -/
theorem WritesReg.onlyJumps {s t : State} {len v : Word} (h : WritesReg s t len .pc v) :
    OnlyJumps s t (evenPart v) := by
  obtain ⟨hg, hpc, hrest⟩ := h
  exact ⟨hpc, Gprs.ext_read hg, hrest⟩

/-- NOP (R114): R1 is written with what it holds. -/
theorem exec_nop (s : State) :
    ∃ t, exec (.or (.gp .r1) (.gp .r1) (.gp .r1)) s = .next t ∧ t.gprs = s.gprs
      ∧ t.mode = s.mode ∧ KeepsOtherPc s t ∧ KeepsMemory s t ∧ KeepsEnvironment s t := by
  obtain ⟨t, ht, hw⟩ := exec_or_writesReg (.gp .r1) (.gp .r1) (.gp .r1) s
  obtain ⟨hg, hrest⟩ := hw.keeps
  refine ⟨t, ht, Gprs.ext_read fun r => ?_, hrest⟩
  rw [hg r, BitVec.or_self, State.readX_gp]
  split
  · next h => rw [h]
  · rfl

/-- Settles O21: each word is that of its XOR or OR, which writes one register. -/
theorem pseudoInstructions : Obligations.PseudoInstructions := by
  intro z src r s
  refine ⟨⟨?_, exec_nop s⟩, ⟨?_, ?_, ?_⟩, ⟨?_, ?_, ?_⟩, ⟨?_, ?_⟩⟩
  · exact decode_of_encode (encode_short rfl (by decide)) rfl
  · exact decode_of_encode (encode_short rfl (by simp)) (by simp [Instr.wf])
  · exact decode_of_encode (encode_short rfl (by decide)) rfl
  · obtain ⟨t, ht, hw⟩ := exec_xor_writesReg .pc .pc (.gp z) s
    rw [BitVec.xor_self] at hw
    exact ⟨t, ht, hw.keeps⟩
  · exact decode_of_encode (encode_short rfl (by simp)) (by simp [Instr.wf])
  · exact decode_of_encode (encode_short rfl (by decide)) rfl
  · obtain ⟨t, ht, hw⟩ := exec_or_writesReg src src (.gp z) s
    rw [BitVec.or_self] at hw
    exact ⟨t, ht, hw.keeps⟩
  · exact decode_of_encode (encode_short rfl (by simp)) (by simp [Instr.wf])
  · obtain ⟨t, ht, hw⟩ := exec_or_writesReg (.gp r) (.gp r) .pc s
    rw [BitVec.or_self] at hw
    exact ⟨t, ht, hw.onlyJumps⟩

end Sys2Proof.Machine
end

section
/-!
PROOFS. The family 40_alu_form_a.md: what an instruction of form A does to the state is said once,
in `aluA_writesReg` and `aluA1_writesReg`, and for XMOV in the laws of `xt[]`. What is left of each
statement is the value: that a function of Machine/Arith.lean, or an operation on words, is the
exact one of the rule, reduced modulo 2^32. Those laws of values speak of words alone, so they
hold of forms B and C as well.
-/

namespace Sys2Proof.Machine

/-! ## Sum, difference and complement as exact arithmetic (R134, R135, R143 to R147) -/

theorem word_add_eq_ofNat (x y : Word) : x + y = BitVec.ofNat 32 (x.toNat + y.toNat) := by
  simp only [BitVec.ofNat_add, BitVec.ofNat_toNat, BitVec.setWidth_eq]

theorem word_sub_eq_ofInt (x y : Word) :
    x - y = BitVec.ofInt 32 ((x.toNat : Int) - y.toNat) := by
  simp only [Int.sub_eq_add_neg, BitVec.ofInt_add, BitVec.ofInt_neg, BitVec.ofInt_natCast,
    BitVec.ofNat_toNat, BitVec.setWidth_eq, BitVec.sub_eq_add_neg]

theorem word_add_one_eq_ofNat (x : Word) : x + 1 = BitVec.ofNat 32 (x.toNat + 1) :=
  word_add_eq_ofNat x 1

theorem word_sub_one_eq_ofInt (x : Word) : x - 1 = BitVec.ofInt 32 ((x.toNat : Int) - 1) :=
  word_sub_eq_ofInt x 1

theorem word_zero_sub_eq_ofInt (x : Word) : 0 - x = BitVec.ofInt 32 (-x.toInt) := by
  rw [BitVec.ofInt_neg, BitVec.ofInt_toInt]
  exact BitVec.zero_sub x

theorem word_not_eq_ofNat (x : Word) : ~~~x = BitVec.ofNat 32 (2 ^ 32 - 1 - x.toNat) := by
  rw [← BitVec.toNat_not, BitVec.ofNat_toNat, BitVec.setWidth_eq]

/-! ## Shifts as exact arithmetic (R136 to R138) -/

theorem shiftLeft_eq_ofNat (p : ShiftPolicy) (v amount : Word) :
    shiftLeft p v amount = BitVec.ofNat 32 (v.toNat * 2 ^ shiftAmount p amount) := by
  apply BitVec.eq_of_toNat_eq
  rw [shiftLeft, BitVec.toNat_shiftLeft, Nat.shiftLeft_eq, BitVec.toNat_ofNat]

theorem shiftRight_eq_ofNat (p : ShiftPolicy) (v amount : Word) :
    shiftRight p v amount = BitVec.ofNat 32 (v.toNat / 2 ^ shiftAmount p amount) := by
  rw [← Nat.shiftRight_eq_div_pow, ← BitVec.toNat_ushiftRight, BitVec.ofNat_toNat,
    BitVec.setWidth_eq, shiftRight]

theorem shiftRightSigned_eq_ofInt (p : ShiftPolicy) (v amount : Word) :
    shiftRightSigned p v amount = BitVec.ofInt 32 (v.toInt / 2 ^ shiftAmount p amount) := by
  rw [shiftRightSigned, BitVec.sshiftRight_eq, Int.shiftRight_eq_div_pow,
    Nat.cast_pow, Nat.cast_ofNat]

/-! ## The amount of a shift (R153) -/

theorem shiftAmount_lowFive (v : Word) : shiftAmount .lowFive v = v.toNat % 32 := by
  simp [shiftAmount, BitVec.extractLsb'_toNat]

theorem shiftAmount_of_lt (p : ShiftPolicy) {v : Word} (h : v.toNat < 32) :
    shiftAmount p v = v.toNat := by
  cases p with
  | lowFive => rw [shiftAmount_lowFive, Nat.mod_eq_of_lt h]
  | saturate => exact Nat.min_eq_left h.le
  | unsettled => exact if_pos h

theorem shiftAmount_saturate_of_le {v : Word} (h : 32 ≤ v.toNat) :
    shiftAmount .saturate v = 32 :=
  Nat.min_eq_right h

/-- An arithmetic shift by the whole width leaves copies of the sign bit (R138). -/
theorem sshiftRight_width (x : Word) :
    x.sshiftRight 32 = if x.toInt < 0 then 0xffffffff else 0 := by
  have hlo : -2 ^ 31 ≤ x.toInt := x.le_toInt
  have hhi : x.toInt < 2 ^ 31 := x.toInt_lt
  rw [BitVec.sshiftRight_eq, Int.shiftRight_eq_div_pow]
  split
  · have hq : x.toInt / ((2 ^ 32 : Nat) : Int) = -1 := by omega
    rw [hq]
    rfl
  · have hq : x.toInt / ((2 ^ 32 : Nat) : Int) = 0 := by omega
    rw [hq]
    rfl

/-! ## The exchanges and extensions (R148 to R151) -/

theorem byteSwap_eq_extractLsb (v : Word) :
    byteSwap v = v.extractLsb 7 0 ++ v.extractLsb 15 8 ++ v.extractLsb 23 16
      ++ v.extractLsb 31 24 := rfl

theorem wordSwap_eq_extractLsb (v : Word) :
    wordSwap v = v.extractLsb 15 0 ++ v.extractLsb 31 16 := rfl

theorem sext8_eq_signExtend (v : Word) : sext8 v = (v.setWidth 8).signExtend 32 := by
  rw [sext8, BitVec.setWidth_eq_extractLsb' (by decide)]

theorem sext16_eq_signExtend (v : Word) : sext16 v = (v.setWidth 16).signExtend 32 := by
  rw [sext16, BitVec.setWidth_eq_extractLsb' (by decide)]

/-! ## The effect of form A (R12, R14, R130) -/

/-- An instruction of form A completes, and its one effect is to write `x[D]`. -/
theorem aluA_writesReg {f : Word → Word → Word} {b a d : Reg} {s : State} {v : Word}
    (hv : f (s.readX b) (s.readX a) = v) :
    ∃ t, aluA f b a d s = .next t ∧ WritesReg s t 2 d v :=
  ⟨_, aluA_next f b a d s, hv ▸ WritesReg.writeX s 2 d _ (evenPart_curPc_two s)⟩

theorem aluA1_writesReg {f : Word → Word} {r d : Reg} {s : State} {v : Word}
    (hv : f (s.readX r) = v) :
    ∃ t, aluA1 f r d s = .next t ∧ WritesReg s t 2 d v :=
  ⟨_, aluA1_next f r d s, hv ▸ WritesReg.writeX s 2 d _ (evenPart_curPc_two s)⟩

/-! ## Reading and writing `xt[]` (R13) -/

@[simp] theorem State.readXt_gp (s : State) (g : Gpr) : s.readXt (.gp g) = s.gprs.read g := rfl

theorem State.readXt_pc_of_task {s : State} (h : s.mode = .task) :
    s.readXt .pc = s.readX .pc :=
  State.readTpc_of_task h

theorem State.readXt_pc_of_scheduler {s : State} (h : s.mode = .scheduler) :
    s.readXt .pc = pcAddr s.tpc := by
  rw [State.readXt, State.readTpc, h]

theorem WritesReg.writeXt_gp (s : State) (g : Gpr) (v : Word) :
    WritesReg s (s.writeXt 2 (.gp g) v) 2 (.gp g) v :=
  WritesReg.setGpr_advance s 2 g v (evenPart_curPc_two s)

theorem WritesTpc.writeXt_pc (s : State) (v : Word) :
    WritesTpc s (s.writeXt 2 .pc v) 2 v :=
  WritesTpc.writeTpc s 2 v (evenPart_curPc_two s)

/-! ## The obligations -/

/-- Settles O6: XOR and OR as the pseudo-instructions have them, AND by the effect of form A. -/
theorem logicFormA : Obligations.LogicFormA := by
  intro b a d s
  refine ⟨⟨encode_short rfl (by simp), exec_xor_writesReg b a d s⟩,
    ⟨encode_short rfl (by simp), exec_or_writesReg b a d s⟩,
    ⟨encode_short rfl (by simp), aluA_writesReg rfl⟩, ?_, ?_⟩
  · simp [Instr.wf]
  · simp only [Instr.wf, decide_eq_false_iff_not, not_not]
    tauto

/-- Settles O7: the exact difference and sum are what the operations on words reduce. -/
theorem addSubFormA : Obligations.AddSubFormA := fun _ _ _ _ =>
  ⟨⟨encode_short rfl (by simp), aluA_writesReg (word_sub_eq_ofInt _ _)⟩,
    ⟨encode_short rfl (by simp), aluA_writesReg (word_add_eq_ofNat _ _)⟩⟩

/-- Settles O8: each shift moves by `shiftAmount`, and is the arithmetic of the rule. -/
theorem shiftFormA : Obligations.ShiftFormA := fun _ _ _ _ =>
  ⟨⟨encode_short rfl (by simp), aluA_writesReg (shiftLeft_eq_ofNat _ _ _)⟩,
    ⟨encode_short rfl (by simp), aluA_writesReg (shiftRight_eq_ofNat _ _ _)⟩,
    ⟨encode_short rfl (by simp), aluA_writesReg (shiftRightSigned_eq_ofInt _ _ _)⟩⟩

/-- Settles O9: for an amount of 32 or more the saturating policy shifts by the whole width. -/
theorem shiftAmountLaw : Obligations.ShiftAmountLaw := by
  intro v x
  refine ⟨fun h p => shiftAmount_of_lt p h, shiftAmount_lowFive v, fun h => ?_⟩
  rw [shiftLeft, shiftRight, shiftRightSigned, shiftAmount_saturate_of_le h]
  exact ⟨BitVec.shiftLeft_eq_zero le_rfl, BitVec.ushiftRight_eq_zero le_rfl, sshiftRight_width x⟩

/-- Settles O10: the model forms the exact product and narrows it as the rules do (R154). -/
theorem mulFormA : Obligations.MulFormA := fun _ _ _ _ _ _ =>
  ⟨⟨encode_short rfl (by simp), aluA_writesReg rfl⟩,
    ⟨encode_short rfl (by simp), aluA_writesReg rfl⟩,
    ⟨encode_short rfl (by simp), aluA_writesReg rfl⟩,
    ⟨encode_short rfl (by simp), aluA_writesReg rfl⟩⟩

/-- Settles O11: each is one operation on the source, exact and then reduced modulo 2^32. -/
theorem unaryFormA : Obligations.UnaryFormA := fun _ _ _ =>
  ⟨⟨encode_short rfl (by simp), aluA1_writesReg (f := (· + 1)) (word_add_one_eq_ofNat _)⟩,
    ⟨encode_short rfl (by simp), aluA1_writesReg (f := (· - 1)) (word_sub_one_eq_ofInt _)⟩,
    ⟨encode_short rfl (by simp), aluA1_writesReg (word_zero_sub_eq_ofInt _)⟩,
    ⟨encode_short rfl (by simp), aluA1_writesReg (word_not_eq_ofNat _)⟩⟩

/-- Settles O12: the model's swaps and extensions are the rules' slices of the source. -/
theorem swapAndExtend : Obligations.SwapAndExtend := fun _ _ _ =>
  ⟨⟨encode_short rfl (by simp), aluA1_writesReg (byteSwap_eq_extractLsb _)⟩,
    ⟨encode_short rfl (by simp), aluA1_writesReg (wordSwap_eq_extractLsb _)⟩,
    ⟨encode_short rfl (by simp), aluA1_writesReg (sext8_eq_signExtend _)⟩,
    ⟨encode_short rfl (by simp), aluA1_writesReg (sext16_eq_signExtend _)⟩⟩

/-- Settles O13: the value is the read of `xt[A]`, and the next state the write of `xt[D]`. -/
theorem xmovBothModes : Obligations.XmovBothModes := by
  intro a d s
  refine ⟨encode_short rfl (by simp), s.writeXt 2 d (s.readXt a), s.readXt a, rfl,
    ?_, ?_, ?_, ?_, ?_⟩
  · rintro g rfl
    exact s.readXt_gp g
  · rintro rfl hm
    exact State.readXt_pc_of_task hm
  · rintro rfl hm
    exact State.readXt_pc_of_scheduler hm
  · rintro g rfl
    exact WritesReg.writeXt_gp s g _
  · rintro rfl
    exact WritesTpc.writeXt_pc s _

end Sys2Proof.Machine
end

section
/-!
PROOFS. The family 41_system.md: the entries to SCHEDULER mode and the return to TASK mode (R170 to
R173), the fences (R175, R176) and WOI (R177). Each instruction but WOI is the sequential advance
with one more effect: an entry and the return are the advance followed by a change of mode, a fence
is the advance from a state in which every queued store is performed. So the frame of each is that
of `OnlyJumps.advance_two`. WOI is a jump.
-/

namespace Sys2Proof.Machine

/-! ## The two program counters in each mode -/

theorem State.curPc_of_task {s : State} (h : s.mode = .task) : s.curPc = pcAddr s.tpc := by
  rw [State.curPc, h]

theorem State.curPc_of_scheduler {s : State} (h : s.mode = .scheduler) :
    s.curPc = pcAddr s.spc := by
  rw [State.curPc, h]

/-- In TASK mode a jump moves TPC (R36). -/
theorem OnlyJumps.tpc_of_task {s t : State} {v : Word} (h : OnlyJumps s t v)
    (hm : s.mode = .task) : pcAddr t.tpc = v ∧ t.spc = s.spc := by
  obtain ⟨hpc, -, hmode, ⟨hspc, -⟩, -⟩ := h
  exact ⟨State.curPc_of_task (hmode.trans hm) ▸ hpc, hspc hm⟩

/-- In SCHEDULER mode a jump moves SPC (R36). -/
theorem OnlyJumps.spc_of_scheduler {s t : State} {v : Word} (h : OnlyJumps s t v)
    (hm : s.mode = .scheduler) : pcAddr t.spc = v ∧ t.tpc = s.tpc := by
  obtain ⟨hpc, -, hmode, ⟨-, htpc⟩, -⟩ := h
  exact ⟨State.curPc_of_scheduler (hmode.trans hm) ▸ hpc, htpc hm⟩

/-! ## The advance with a change of mode (R375, R173) -/

theorem advance_two_setMode_of_task {s : State} (m : Mode) (hm : s.mode = .task) :
    pcAddr ((s.advance 2).setMode m).tpc = pcAddr s.tpc + 2
      ∧ ((s.advance 2).setMode m).spc = s.spc :=
  State.curPc_of_task hm ▸ (OnlyJumps.advance_two s).tpc_of_task hm

theorem advance_two_setMode_of_scheduler {s : State} (m : Mode) (hm : s.mode = .scheduler) :
    pcAddr ((s.advance 2).setMode m).spc = pcAddr s.spc + 2
      ∧ ((s.advance 2).setMode m).tpc = s.tpc :=
  State.curPc_of_scheduler hm ▸ (OnlyJumps.advance_two s).spc_of_scheduler hm

/-- The advance and the change of mode leave everything but the mode and a program counter. -/
theorem advance_two_setMode_keeps (s : State) (m : Mode) :
    ((s.advance 2).setMode m).gprs = s.gprs ∧ KeepsMemory s ((s.advance 2).setMode m)
      ∧ KeepsEnvironment s ((s.advance 2).setMode m) := by
  obtain ⟨-, hg, -, -, hmem, henv⟩ := OnlyJumps.advance_two s
  exact ⟨hg, hmem, henv⟩

/-- FILL, BREAK and SYSCALL are one operation (R170 to R172). -/
theorem exec_enterScheduler {i : Instr} (hi : i = .fill ∨ i = .brk ∨ i = .syscall) (s : State) :
    exec i s = .next ((s.advance 2).setMode .scheduler) := by
  rcases hi with rfl | rfl | rfl <;> rfl

/-! ## The fences (R76, R77, R79) -/

/-- Every queued store is performed, and the stale bytes become those of `l`: what FENCE and WFENCE
do before they advance. -/
def State.flushLeaving (l : List Nat) (s : State) : State := { s.flush with stale := l }

theorem State.fence_eq_flushLeaving (s : State) : s.fence = s.flushLeaving [] := rfl

theorem State.flush_eq_flushLeaving (s : State) : s.flush = s.flushLeaving s.stale := rfl

/-- The two fences differ in the stale bytes they leave (R175, R176). -/
theorem exec_fence_or_wfence {i : Instr} (hi : i = .fence ∨ i = .wfence) (s : State) :
    exec i s
      = .next ((s.flushLeaving (if i = .fence then [] else s.stale)).advance 2) := by
  rcases hi with rfl | rfl
  · rw [if_pos rfl, ← State.fence_eq_flushLeaving]
    rfl
  · rw [if_neg (by decide), ← State.flush_eq_flushLeaving]
    rfl

/-! ## WOI (R177) -/

@[simp] theorem State.evenPart_readX_pc (s : State) : evenPart (s.readX .pc) = s.readX .pc :=
  evenPart_pcAddr _

/-- A jump to the current address changes nothing (R35). -/
@[simp] theorem State.jump_curPc (s : State) : s.jump s.curPc = s := by
  cases hm : s.mode with
  | task => rw [State.curPc_of_task hm, State.jump, hm, State.setTpc, pcOf_pcAddr]
  | scheduler => rw [State.curPc_of_scheduler hm, State.jump, hm, State.setSpc, pcOf_pcAddr]

/-- WOI is the OR of index 0 with itself, written to index 0: a jump to what index 0 reads as. -/
theorem exec_woi (s : State) : exec .woi s = .next (s.jump (s.readX .pc)) := by
  calc exec .woi s
    _ = .next (s.jump (s.readX .pc ||| s.readX .pc)) := aluA_next _ .pc .pc .pc s
    _ = .next (s.jump (s.readX .pc)) := by rw [BitVec.or_self]

/-! ## The obligations -/

/-- Settles O28: the three enter by the advance and the change of mode. -/
theorem enterScheduler : Obligations.EnterScheduler := by
  refine ⟨encode_short rfl (by decide), encode_short rfl (by decide),
    encode_short rfl (by decide), fun i s hi => ?_⟩
  exact ⟨_, exec_enterScheduler hi s, rfl, advance_two_setMode_of_task _,
    advance_two_setMode_of_scheduler _, advance_two_setMode_keeps s _⟩

/-- Settles O29: STU returns by the advance and the change of mode, after which execution goes on
at TPC. -/
theorem stuReturns : Obligations.StuReturns := by
  refine ⟨encode_short rfl (by decide), fun s => ⟨(s.advance 2).setMode .task, rfl, rfl,
    fun hm => ?_, advance_two_setMode_of_task _, advance_two_setMode_keeps s _⟩⟩
  obtain ⟨hspc, htpc⟩ := advance_two_setMode_of_scheduler .task hm
  exact ⟨hspc, htpc, congrArg pcAddr htpc⟩

/-- Settles O30: the advance leaves the performed memory, the empty queue and the stale bytes as
the fence left them. -/
theorem fencesDrainQueue : Obligations.FencesDrainQueue := by
  refine ⟨encode_short rfl (by decide), encode_short rfl (by decide), fun i s hi => ?_⟩
  have hexec := exec_fence_or_wfence hi s
  obtain ⟨hpc, hg, hmode, hother, ⟨-, hmem, hqueue, hstale⟩, henv⟩ :=
    OnlyJumps.advance_two (s.flushLeaving (if i = .fence then [] else s.stale))
  exact ⟨_, hexec, hqueue, fun a => congrArg (Memory.read · a) hmem,
    exec_fence_readByte hi hexec, hstale, hg, hpc, hmode, hother, henv⟩

/-- Settles O31: with `PC_READ_BIAS` 0 the jump is to the current address. -/
theorem woiSpins : Obligations.WoiSpins := by
  refine ⟨encode_short rfl (by decide), fun s => ⟨⟨_, exec_woi s, ?_⟩, fun hbias => ?_⟩⟩
  · simpa using OnlyJumps.jump s (s.readX .pc)
  · rw [exec_woi, State.readX_pc_of_noBias hbias, State.jump_curPc]

end Sys2Proof.Machine
end

section
/-!
PROOFS. The family 42_alu_form_b.md: FIELD_A = 0xf makes every word of form B long (R92), which
`encode_of_fieldA_xf` says once, and `aluB_writesReg` says once what an instruction of form B does
to the state (R190). The values are those of form A with VALUE as the right operand, by the same
laws of words. LI is the write of `x[D]` and LIT that of `xt[D]` (R12, R13).
-/

namespace Sys2Proof.Machine

/-! ## The words -/

/-- An instruction whose FIELD_A is 0xf is long: INST and the two halfwords of VALUE (R92, R65). -/
theorem encode_of_fieldA_xf {i : Instr} {c b d : Nib} (h : i.fields = (c, b, .xf, d)) :
    encode i
      = [packInst c b .xf d, i.fieldI.extractLsb' 0 16, i.fieldI.extractLsb' 16 16] :=
  encode_long h (.inr (.inr (.inl rfl)))

/-! ## The effect of form B (R12, R14, R190) -/

/-- An instruction of form B completes, and its one effect is to write `x[D]`. -/
theorem aluB_writesReg {f : Word → Word → Word} {b d : Reg} {imm : Word} {s : State} {v : Word}
    (hv : f (s.readX b) imm = v) :
    ∃ t, aluB f b d imm s = .next t ∧ WritesReg s t 6 d v :=
  ⟨_, aluB_next f b d imm s, hv ▸ WritesReg.writeX s 6 d _ (evenPart_curPc_six s)⟩

/-! ## LI and LIT (R192, R194) -/

theorem exec_li (d : Reg) (imm : Word) (s : State) :
    exec (.li d imm) s = .next (s.writeX 6 d imm) := rfl

theorem exec_lit (d : Reg) (imm : Word) (s : State) :
    exec (.lit d imm) s = .next (s.writeXt 6 d imm) := rfl

/-- `xt[]` and `x[]` name the same general registers (R13). -/
theorem State.writeXt_gp (s : State) (len : Word) (g : Gpr) (v : Word) :
    s.writeXt len (.gp g) v = s.writeX len (.gp g) v := rfl

theorem State.writeXt_pc (s : State) (len v : Word) : s.writeXt len .pc v = s.writeTpc len v := rfl

theorem exec_li_writesReg (d : Reg) (imm : Word) (s : State) :
    ∃ t, exec (.li d imm) s = .next t ∧ WritesReg s t 6 d imm :=
  ⟨_, exec_li d imm s, WritesReg.writeX s 6 d imm (evenPart_curPc_six s)⟩

/-- Where D names a general register, LIT is LI. -/
theorem exec_lit_gp_eq_exec_li (g : Gpr) (imm : Word) (s : State) :
    exec (.lit (.gp g) imm) s = exec (.li (.gp g) imm) s := by
  rw [exec_lit, State.writeXt_gp, exec_li]

theorem exec_lit_pc_writesTpc (imm : Word) (s : State) :
    ∃ t, exec (.lit .pc imm) s = .next t ∧ WritesTpc s t 6 imm := by
  rw [exec_lit, State.writeXt_pc]
  exact ⟨_, rfl, WritesTpc.writeTpc s 6 imm (evenPart_curPc_six s)⟩

/-! ## The obligations -/

/-- Settles O15: the bitwise results as they stand, the difference and the sum by the laws of
words that form A uses. -/
theorem logicAddFormB : Obligations.LogicAddFormB := fun _ _ _ _ =>
  ⟨⟨encode_of_fieldA_xf rfl, aluB_writesReg rfl⟩,
    ⟨encode_of_fieldA_xf rfl, aluB_writesReg rfl⟩,
    ⟨encode_of_fieldA_xf rfl, aluB_writesReg rfl⟩,
    ⟨encode_of_fieldA_xf rfl, aluB_writesReg (word_sub_eq_ofInt _ _)⟩,
    ⟨encode_of_fieldA_xf rfl, aluB_writesReg (word_add_eq_ofNat _ _)⟩⟩

/-- Settles O16: each shift moves by `shiftAmount` of VALUE, and is the arithmetic of the rule. -/
theorem shiftFormB : Obligations.ShiftFormB := fun _ _ _ _ =>
  ⟨⟨encode_of_fieldA_xf rfl, aluB_writesReg (shiftLeft_eq_ofNat _ _ _)⟩,
    ⟨encode_of_fieldA_xf rfl, aluB_writesReg (shiftRight_eq_ofNat _ _ _)⟩,
    ⟨encode_of_fieldA_xf rfl, aluB_writesReg (shiftRightSigned_eq_ofInt _ _ _)⟩⟩

/-- Settles O17: the model forms the exact product with VALUE and narrows it as the rules do
(R154, D26). -/
theorem mulFormB : Obligations.MulFormB := fun _ _ _ _ =>
  ⟨⟨encode_of_fieldA_xf rfl, aluB_writesReg rfl⟩,
    ⟨encode_of_fieldA_xf rfl, aluB_writesReg rfl⟩,
    ⟨encode_of_fieldA_xf rfl, aluB_writesReg rfl⟩,
    ⟨encode_of_fieldA_xf rfl, aluB_writesReg rfl⟩⟩

/-- Settles O18: LIT of a general register is LI, and LIT of index 0 is the write of TPC by name. -/
theorem loadImmediate : Obligations.LoadImmediate := by
  intro d g imm s
  refine ⟨⟨encode_of_fieldA_xf rfl, exec_li_writesReg d imm s⟩,
    ⟨encode_of_fieldA_xf rfl, ?_⟩, ⟨encode_of_fieldA_xf rfl, exec_lit_pc_writesTpc imm s⟩⟩
  rw [exec_lit_gp_eq_exec_li]
  exact exec_li_writesReg (.gp g) imm s

end Sys2Proof.Machine
end

section
/-!
PROOFS. The family 43_alu_form_c.md: form C is form B with the operands exchanged, VALUE on the left
and `x[A]` on the right (R220). FIELD_B = 0xf makes every word of it long (R92), which
`encode_of_fieldB_xf` says once, and `aluC_writesReg` says once what an instruction of form C does
to the state. The values are those of form A with VALUE as the left operand, by the same laws of
words.
-/

namespace Sys2Proof.Machine

/-- An instruction whose FIELD_B is 0xf is long: INST and the two halfwords of VALUE (R92, R65). -/
theorem encode_of_fieldB_xf {i : Instr} {c a d : Nib} (h : i.fields = (c, .xf, a, d)) :
    encode i
      = [packInst c .xf a d, i.fieldI.extractLsb' 0 16, i.fieldI.extractLsb' 16 16] :=
  encode_long h (.inr (.inl rfl))

/-- An instruction of form C completes, and its one effect is to write `x[D]`. -/
theorem aluC_writesReg {f : Word → Word → Word} {a d : Reg} {imm : Word} {s : State} {v : Word}
    (hv : f imm (s.readX a) = v) :
    ∃ t, aluC f a d imm s = .next t ∧ WritesReg s t 6 d v :=
  ⟨_, aluC_next f a d imm s, hv ▸ WritesReg.writeX s 6 d _ (evenPart_curPc_six s)⟩

/-- Settles O19: the difference and the shifts are those of form A, taken of VALUE by `x[A]`; the
amount is `shiftAmount` of the register. -/
theorem formC : Obligations.FormC := fun _ _ _ _ =>
  ⟨⟨encode_of_fieldB_xf rfl, aluC_writesReg (word_sub_eq_ofInt _ _)⟩,
    ⟨encode_of_fieldB_xf rfl, aluC_writesReg (shiftLeft_eq_ofNat _ _ _)⟩,
    ⟨encode_of_fieldB_xf rfl, aluC_writesReg (shiftRight_eq_ofNat _ _ _)⟩,
    ⟨encode_of_fieldB_xf rfl, aluC_writesReg (shiftRightSigned_eq_ofInt _ _ _)⟩⟩

end Sys2Proof.Machine
end

section
/-!
PROOFS. The family 44_float.md: a floating-point instruction is one of form A, B or C whose register
operands and destination are general registers (R249) and whose operation is a member of FP. So its
word and its frame are those of its form, and what is left of each statement is which member of FP
it is and in what order it takes the operands. Nothing is assumed of any member (R235, D9).
-/

namespace Sys2Proof.Machine

/-! ## The forms where every index names a general register (R249) -/

theorem aluA_gp_writesReg (f : Word → Word → Word) (b a d : Gpr) (s : State) :
    ∃ t, aluA f (.gp b) (.gp a) (.gp d) s = .next t
      ∧ WritesReg s t 2 (.gp d) (f (s.gprs.read b) (s.gprs.read a)) :=
  aluA_writesReg (by rw [State.readX_gp, State.readX_gp])

theorem aluA1_gp_writesReg (f : Word → Word) (r d : Gpr) (s : State) :
    ∃ t, aluA1 f (.gp r) (.gp d) s = .next t
      ∧ WritesReg s t 2 (.gp d) (f (s.gprs.read r)) :=
  aluA1_writesReg (by rw [State.readX_gp])

theorem aluB_gp_writesReg (f : Word → Word → Word) (b d : Gpr) (imm : Word) (s : State) :
    ∃ t, aluB f (.gp b) (.gp d) imm s = .next t
      ∧ WritesReg s t 6 (.gp d) (f (s.gprs.read b) imm) :=
  aluB_writesReg (by rw [State.readX_gp])

theorem aluC_gp_writesReg (f : Word → Word → Word) (a d : Gpr) (imm : Word) (s : State) :
    ∃ t, aluC f (.gp a) (.gp d) imm s = .next t
      ∧ WritesReg s t 6 (.gp d) (f imm (s.gprs.read a)) :=
  aluC_writesReg (by rw [State.readX_gp])

/-- Settles O22: each instruction is its form with one member of FP; IFSUB alone has VALUE on the
left (C9). -/
theorem floatArithmetic : Obligations.FloatArithmetic := fun b a d imm s =>
  ⟨⟨encode_short rfl (by simp), aluA_gp_writesReg FP.add b a d s⟩,
    ⟨encode_short rfl (by simp), aluA_gp_writesReg FP.sub b a d s⟩,
    ⟨encode_short rfl (by simp), aluA_gp_writesReg FP.mul b a d s⟩,
    ⟨encode_short rfl (by simp), aluA1_gp_writesReg FP.i2f b d s⟩,
    ⟨encode_short rfl (by simp), aluA1_gp_writesReg FP.f2i a d s⟩,
    ⟨encode_short rfl (by simp), aluA1_gp_writesReg FP.rsqrt b d s⟩,
    ⟨encode_short rfl (by simp), aluA1_gp_writesReg FP.recip a d s⟩,
    ⟨encode_of_fieldA_xf rfl, aluB_gp_writesReg FP.add b d imm s⟩,
    ⟨encode_of_fieldA_xf rfl, aluB_gp_writesReg FP.sub b d imm s⟩,
    ⟨encode_of_fieldA_xf rfl, aluB_gp_writesReg FP.mul b d imm s⟩,
    ⟨encode_of_fieldB_xf rfl, aluC_gp_writesReg FP.sub a d imm s⟩⟩

end Sys2Proof.Machine
end

section
/-!
PROOFS. The family 45_branches.md: a branch is the shared `branch` with a condition that is one test
of register values, and no flag (R40). FIELD_D = 0xf makes every word of a branch long (R92), which
`encode_of_fieldD_xf` says once, and `branch_onlyJumps` says once what a branch does to the state
(R260). What is left of each statement is that its test decides the relation of the row. The target
is that of `State.branchTarget`, whose base `State.branchBase_cases` describes.
-/

namespace Sys2Proof.Machine

/-! ## The target (R260, R98) -/

theorem State.branchTarget_absolute (s : State) (off : PcBits) :
    s.branchTarget off false = pcAddr off := rfl

theorem State.branchTarget_relative (s : State) (off : PcBits) :
    s.branchTarget off true = s.branchBase + pcAddr off := rfl

/-- The relative target as exact arithmetic: the distance in bytes is OFFSET with a clear bit 0
behind it (R98, D28). -/
theorem State.branchTarget_relative_toNat {s : State} {base : Word} (h : s.branchBase = base)
    (off : PcBits) :
    (s.branchTarget off true).toNat = (base.toNat + 2 * off.toNat) % 2 ^ 32 := by
  rw [State.branchTarget_relative, h, BitVec.toNat_add, pcAddr_toNat]

theorem State.branchBase_of_asRead {s : State} (h : s.cfg.branchBase = .asRead) :
    s.branchBase = s.readX .pc := by
  simpa [h] using s.branchBase_cases

theorem State.branchBase_of_ownAddress {s : State} (h : s.cfg.branchBase = .ownAddress) :
    s.branchBase = s.curPc := by
  simpa [h] using s.branchBase_cases

/-! ## The tests of register values (R261 to R276) -/

theorem isZero_iff (v : Word) : isZero v = true ↔ v = 0 := beq_iff_eq

theorem isNegative_iff (v : Word) : isNegative v = true ↔ v.toInt < 0 := decide_eq_true_iff

theorem isPositive_iff (v : Word) : isPositive v = true ↔ v.toInt > 0 := decide_eq_true_iff

theorem isEqual_iff (b a : Word) : isEqual b a = true ↔ b = a := beq_iff_eq

theorem lessSigned_iff (b a : Word) : lessSigned b a = true ↔ b.toInt < a.toInt :=
  decide_eq_true_iff

theorem lessUnsigned_iff (b a : Word) : lessUnsigned b a = true ↔ b.toNat < a.toNat :=
  decide_eq_true_iff

/-- Bit n of a value is the parity of its quotient by 2^n. -/
theorem bitOf_iff (v : Word) (n : Nat) : bitOf v n = true ↔ v.toNat / 2 ^ n % 2 = 1 := by
  rw [bitOf, BitVec.getLsbD, Nat.testBit_eq_decide_div_mod_eq, decide_eq_true_iff]

/-! ## The words and the effect of a branch (R92, R260) -/

/-- An instruction whose FIELD_D is 0xf is long: INST and the halfwords of FIELD_I (R92, R65). -/
theorem encode_of_fieldD_xf {i : Instr} {c b a : Nib} (h : i.fields = (c, b, a, .xf)) :
    encode i
      = [packInst c b a .xf, i.fieldI.extractLsb' 0 16, i.fieldI.extractLsb' 16 16] :=
  encode_long h (.inr (.inr (.inr rfl)))

section
variable {c : Bool} {p : Prop} {off : PcBits} {rel : Bool} {s : State}

/-- A branch whose test decides `p` completes, and its one effect is to go on at the target if `p`
holds and at the next instruction if not. -/
theorem branch_onlyJumps [Decidable p] (h : c = true ↔ p) :
    ∃ t, branch c off rel s = .next t
      ∧ OnlyJumps s t (if p then s.branchTarget off rel else s.curPc + 6) := by
  refine ⟨_, branch_next c off rel s, ?_⟩
  by_cases hp : p
  · rw [if_pos (h.2 hp), if_pos hp]
    simpa using OnlyJumps.jump s (s.branchTarget off rel)
  · rw [if_neg (mt h.1 hp), if_neg hp]
    exact OnlyJumps.advance_six s

/-- The branch on the complement of a test. -/
theorem branch_not_onlyJumps {q : Prop} [Decidable q] (h : c = true ↔ p) (hq : ¬ p ↔ q) :
    ∃ t, branch (!c) off rel s = .next t
      ∧ OnlyJumps s t (if q then s.branchTarget off rel else s.curPc + 6) :=
  branch_onlyJumps (by rw [← hq, ← h, Bool.not_eq_true', Bool.not_eq_true])

end

/-! ## The obligations -/

/-- Settles O23: with `PC_READ_BIAS` 0 the base is the branch's own address under either setting,
and the target is even because the base and the offset are. -/
theorem branchTarget : Obligations.BranchTarget := by
  intro s off
  refine ⟨?_, fun hread => ?_, fun hown => ?_, fun rel => ?_⟩
  · rw [State.branchTarget_absolute, pcAddr_toNat]
  · exact State.branchTarget_relative_toNat (State.branchBase_of_asRead hread) off
  · exact State.branchTarget_relative_toNat
      (hown.elim State.branchBase_of_ownAddress State.branchBase_of_noBias) off
  · rw [← State.evenPart_branchTarget, evenPart_bit0]

/-- Settles O24: three tests of one value and their complements. -/
theorem branchOnZero : Obligations.BranchOnZero := fun _ _ _ _ =>
  ⟨⟨encode_of_fieldD_xf rfl, branch_onlyJumps (isZero_iff _)⟩,
    ⟨encode_of_fieldD_xf rfl, branch_not_onlyJumps (isZero_iff _) Iff.rfl⟩,
    ⟨encode_of_fieldD_xf rfl, branch_onlyJumps (isNegative_iff _)⟩,
    ⟨encode_of_fieldD_xf rfl, branch_not_onlyJumps (isNegative_iff _) Int.not_lt⟩,
    ⟨encode_of_fieldD_xf rfl, branch_onlyJumps (isPositive_iff _)⟩,
    ⟨encode_of_fieldD_xf rfl, branch_not_onlyJumps (isPositive_iff _) Int.not_lt⟩⟩

/-- Settles O25: three comparisons of two values and their complements. -/
theorem branchOnCompare : Obligations.BranchOnCompare := fun _ _ _ _ _ =>
  ⟨⟨encode_of_fieldD_xf rfl, branch_onlyJumps (isEqual_iff _ _)⟩,
    ⟨encode_of_fieldD_xf rfl, branch_not_onlyJumps (isEqual_iff _ _) Iff.rfl⟩,
    ⟨encode_of_fieldD_xf rfl, branch_onlyJumps (lessSigned_iff _ _)⟩,
    ⟨encode_of_fieldD_xf rfl, branch_not_onlyJumps (lessSigned_iff _ _) Int.not_lt⟩,
    ⟨encode_of_fieldD_xf rfl, branch_onlyJumps (lessUnsigned_iff _ _)⟩,
    ⟨encode_of_fieldD_xf rfl, branch_not_onlyJumps (lessUnsigned_iff _ _) Nat.not_lt⟩⟩

/-- Settles O26: the two members of FP are the tests, each by itself. -/
theorem branchOnFloat : Obligations.BranchOnFloat := fun _ _ _ _ _ =>
  ⟨⟨encode_of_fieldD_xf rfl, branch_onlyJumps Iff.rfl⟩,
    ⟨encode_of_fieldD_xf rfl, branch_onlyJumps Iff.rfl⟩⟩

/-- Settles O27: BBS tests a bit of the register in FIELD_A, BBC the complement of a bit of the
register in FIELD_B (C3). -/
theorem branchOnBit : Obligations.BranchOnBit := fun _ _ _ _ _ =>
  ⟨⟨encode_of_fieldD_xf rfl, branch_onlyJumps (bitOf_iff _ _)⟩,
    ⟨encode_of_fieldD_xf rfl, branch_not_onlyJumps (bitOf_iff _ _) Nat.mod_two_ne_one⟩⟩

end Sys2Proof.Machine
end

section
/-!
PROOFS. The family 46_load_store.md. Every load, load into TPC and store is one of the three shared
operations `load`, `loadTpc` and `store`, whose effect on an access that passes is that of
`load_completes`, `loadTpc_completes` and `store_completes` (R300). What is left of a load is its
value, the extension of what the core sees (R305 to R309), and of a store of TPC what a read of TPC
by name gives (R13). The words and the reserved patterns (R330) are read off the fields of INST: the
length off the length rule, the rest off the two halves of `decodeLs`.
-/

namespace Sys2Proof

/-! ## The words (R302 to R304) -/

/-- With INST[11] = 1 a load or store is long: INST and the two halfwords of VALUE (R92, R65). -/
theorem encode_of_lsLong {i : Instr} {b a d : Nib} (h : i.fields = (.xf, b, a, d))
    (hb : 8 ≤ b.val) :
    encode i
      = [packInst .xf b a d, i.fieldI.extractLsb' 0 16, i.fieldI.extractLsb' 16 16] :=
  encode_long h (.inl ⟨rfl, hb⟩)

/-! ## The load/store space (R106, R330) -/

/-- With INST[11] = 0 the row of FIELD_B is one of form A, a defined instruction. -/
theorem decodeLs_eq_decodeLsA {b : Nib} (hb : b.val < 8) :
    ∃ mk : Reg → Reg → Instr, (∀ a d, (mk a d).isReserved = false)
      ∧ ∀ a d, decodeLs b a d = decodeLsA b a d mk := by
  cases b
  case x0 | x1 | x2 | x3 | x4 | x5 | x6 | x7 => exact ⟨_, fun _ _ => rfl, fun _ _ => rfl⟩
  all_goals exact absurd hb (by decide)

/-- Forms C and D wait for FIELD_I, whatever FIELD_A and FIELD_D are. -/
theorem decodeLsCD_eq_long {formC : Reg → Word → Instr} {formCTpc : Word → Instr}
    {formD : Reg → Reg → Word → Instr} {formDTpc : Reg → Word → Instr}
    (hC : ∀ d v, (formC d v).isReserved = false) (hCTpc : ∀ v, (formCTpc v).isReserved = false)
    (hD : ∀ a d v, (formD a d v).isReserved = false)
    (hDTpc : ∀ a v, (formDTpc a v).isReserved = false) (a d : Nib) :
    ∃ f, decodeLsCD a d formC formCTpc formD formDTpc = .long f
      ∧ ∀ v, (f v).isReserved = false := by
  obtain rfl | ⟨a, rfl⟩ := a.eq_xf_or_reg <;> obtain rfl | ⟨d, rfl⟩ := d.eq_xf_or_reg
  · exact ⟨_, rfl, hCTpc⟩
  · exact ⟨_, decodeLsCD_formC .., hC d⟩
  · exact ⟨_, decodeLsCD_formDTpc .., hDTpc a⟩
  · exact ⟨_, decodeLsCD_formD .., hD a d⟩

/-- With INST[11] = 1 every value of FIELD_A and FIELD_D selects a defined instruction that waits
for FIELD_I. -/
theorem decodeLs_eq_long {b : Nib} (hb : 8 ≤ b.val) (a d : Nib) :
    ∃ f, decodeLs b a d = .long f ∧ ∀ v, (f v).isReserved = false := by
  cases b
  case x8 | x9 | xa | xb | xc | xd | xe | xf =>
    exact decodeLsCD_eq_long (fun _ _ => rfl) (fun _ => rfl) (fun _ _ _ => rfl) (fun _ _ => rfl) a d
  all_goals exact absurd hb (by decide)

theorem decodeWord_pack_xf (b a d : Nib) (v : Word) :
    decodeWord (packInst .xf b a d) v = (decodeLs b a d).instr v := by
  rw [decodeWord, decodeInst_pack]
  rfl

/-- The length of a decoded instruction, read off the fields (R92). -/
theorem length_decodeWord_pack (c b a d : Nib) (v : Word) :
    (decodeWord (packInst c b a d) v).length
      = if (c = .xf ∧ 8 ≤ b.val) ∨ b = .xf ∨ a = .xf ∨ d = .xf then 6 else 2 := by
  have hrow : InRow c b a d (instLength (packInst c b a d)) ((decodeFields c b a d).instr v) :=
    (spells_decodeFields c b a d).inRow_instr v
  rw [decodeWord, decodeInst_pack, hrow.length, instLength_pack]

end Sys2Proof

namespace Sys2Proof.Machine

/-! ## The value of a load (R305 to R309) -/

theorem sext8_loadBytes (s : State) (p : Word) :
    sext8 (s.loadBytes p .byte) = (s.byteAt p 0).signExtend 32 := by
  rw [State.loadBytes_byte, sext8, extract_zeroExtended (by decide)]

theorem zext8_loadBytes (s : State) (p : Word) :
    zext8 (s.loadBytes p .byte) = (s.byteAt p 0).setWidth 32 := by
  rw [State.loadBytes_byte, zext8_setWidth]

theorem sext16_loadBytes (s : State) (p : Word) :
    sext16 (s.loadBytes p .half) = (s.halfAt p).signExtend 32 := by
  rw [State.loadBytes_half, sext16, extract_zeroExtended (by decide)]

theorem zext16_loadBytes (s : State) (p : Word) :
    zext16 (s.loadBytes p .half) = (s.halfAt p).setWidth 32 := by
  rw [State.loadBytes_half, zext16_setWidth]

/-! ## The effect of an access that passes (R300) -/

section
variable {s : State} {n : Size} {ext : Word → Word} {ea p v : Word}

/-- A load of form A completes, and its one effect is to write `x[D]`. -/
theorem loadA_writesReg {d : Reg} (hv : ext (s.loadBytes p n) = v)
    (h : Accessible s ea n .read p) :
    ∃ t, load 2 n ext ea d s = .next t ∧ WritesReg s t 2 d v :=
  hv ▸ load_completes (evenPart_curPc_two s) h

/-- A load of form C or D completes, and its one effect is to write `x[D]`. -/
theorem loadCD_writesReg {d : Reg} (hv : ext (s.loadBytes p n) = v)
    (h : Accessible s ea n .read p) :
    ∃ t, load 6 n ext ea d s = .next t ∧ WritesReg s t 6 d v :=
  hv ▸ load_completes (evenPart_curPc_six s) h

/-- A load into TPC completes, and its one effect is to write TPC by name (R301). -/
theorem loadTpc_writesTpc (hv : ext (s.loadBytes p n) = v) (h : Accessible s ea n .read p) :
    ∃ t, loadTpc 6 n ext ea s = .next t ∧ WritesTpc s t 6 v :=
  hv ▸ loadTpc_completes (evenPart_curPc_six s) h

/-- A store of form A completes, and its one effect is the store. -/
theorem storeA_stores (h : Accessible s ea n .write p) :
    ∃ t, store 2 n ea v s = .next t ∧ Stores s t 2 n p v :=
  store_completes (evenPart_curPc_two s) h

/-- A store of form C or D completes, and its one effect is the store. -/
theorem storeCD_stores (h : Accessible s ea n .write p) :
    ∃ t, store 6 n ea v s = .next t ∧ Stores s t 6 n p v :=
  store_completes (evenPart_curPc_six s) h

end

/-- A read of TPC by name, mode by mode (R13, D3). -/
theorem State.readTpc_eq_ite (s : State) :
    s.readTpc = if s.mode = .task then s.readX .pc else pcAddr s.tpc := by
  cases hm : s.mode with
  | task => rw [State.readTpc_of_task hm, if_pos rfl]
  | scheduler => rw [State.readTpc, hm, if_neg (by decide)]

/-- A store of TPC completes, and stores what a read of TPC by name gives (R301). -/
theorem storeTpc_stores {s : State} {n : Size} {ea p : Word} (h : Accessible s ea n .write p) :
    ∃ t, store 6 n ea s.readTpc s = .next t
      ∧ Stores s t 6 n p (if s.mode = .task then s.readX .pc else pcAddr s.tpc) :=
  s.readTpc_eq_ite ▸ storeCD_stores h

/-! ## The reserved patterns (R330, R350) -/

theorem exec_siiLsADf (b a : Nib) (s : State) : exec (.siiLsADf b a) s = s.raise .sii := rfl

theorem exec_siiLsAAf (b : Nib) (d : Reg) (s : State) :
    exec (.siiLsAAf b d) s = s.raise .sii := rfl

/-- With INST[11] = 0 and 0xf in FIELD_A or FIELD_D, INST selects a reserved row. -/
theorem decodeLs_raisesSii {b a d : Nib} (hb : b.val < 8) (h : a = .xf ∨ d = .xf) (v : Word)
    (s : State) :
    exec ((decodeLs b a d).instr v) s = s.raise .sii
      ∧ ((decodeLs b a d).instr v).isReserved = true := by
  obtain ⟨mk, -, hmk⟩ := decodeLs_eq_decodeLsA hb
  obtain rfl | ⟨d, rfl⟩ := d.eq_xf_or_reg
  · rw [hmk, decodeLsA_fieldD]
    exact ⟨exec_siiLsADf b a s, rfl⟩
  · obtain rfl : a = .xf := h.resolve_right d.nib_ne_xf
    rw [hmk, decodeLsA_fieldA]
    exact ⟨exec_siiLsAAf b d s, rfl⟩

/-! ## The obligations -/

/-- Settles O32: each is a load from `x[A]` (C1) with the extension of its row. -/
theorem loadFormA : Obligations.LoadFormA := fun _ _ p s =>
  ⟨⟨encode_short rfl (by simp [Nib.val]), loadA_writesReg (sext8_loadBytes s p)⟩,
    ⟨encode_short rfl (by simp [Nib.val]), loadA_writesReg (zext8_loadBytes s p)⟩,
    ⟨encode_short rfl (by simp [Nib.val]), loadA_writesReg (sext16_loadBytes s p)⟩,
    ⟨encode_short rfl (by simp [Nib.val]), loadA_writesReg (zext16_loadBytes s p)⟩,
    ⟨encode_short rfl (by simp [Nib.val]), loadA_writesReg (s.loadBytes_word p)⟩⟩

/-- Settles O33: each is a load from VALUE with the extension of its row. -/
theorem loadFormC : Obligations.LoadFormC := fun _ _ p s =>
  ⟨⟨encode_of_lsLong rfl (by decide), loadCD_writesReg (sext8_loadBytes s p)⟩,
    ⟨encode_of_lsLong rfl (by decide), loadCD_writesReg (zext8_loadBytes s p)⟩,
    ⟨encode_of_lsLong rfl (by decide), loadCD_writesReg (sext16_loadBytes s p)⟩,
    ⟨encode_of_lsLong rfl (by decide), loadCD_writesReg (zext16_loadBytes s p)⟩,
    ⟨encode_of_lsLong rfl (by decide), loadCD_writesReg (s.loadBytes_word p)⟩⟩

/-- Settles O34: each is a load from `x[A] + VALUE` (C2) with the extension of its row. -/
theorem loadFormD : Obligations.LoadFormD := fun _ _ _ p s =>
  ⟨⟨encode_of_lsLong rfl (by decide), loadCD_writesReg (sext8_loadBytes s p)⟩,
    ⟨encode_of_lsLong rfl (by decide), loadCD_writesReg (zext8_loadBytes s p)⟩,
    ⟨encode_of_lsLong rfl (by decide), loadCD_writesReg (sext16_loadBytes s p)⟩,
    ⟨encode_of_lsLong rfl (by decide), loadCD_writesReg (zext16_loadBytes s p)⟩,
    ⟨encode_of_lsLong rfl (by decide), loadCD_writesReg (s.loadBytes_word p)⟩⟩

/-- Settles O35: the loads of forms C and D once more, the value going to TPC (C22). -/
theorem loadIntoTpc : Obligations.LoadIntoTpc := fun _ _ p s =>
  ⟨⟨encode_of_lsLong rfl (by decide), loadTpc_writesTpc (sext8_loadBytes s p)⟩,
    ⟨encode_of_lsLong rfl (by decide), loadTpc_writesTpc (zext8_loadBytes s p)⟩,
    ⟨encode_of_lsLong rfl (by decide), loadTpc_writesTpc (sext16_loadBytes s p)⟩,
    ⟨encode_of_lsLong rfl (by decide), loadTpc_writesTpc (zext16_loadBytes s p)⟩,
    ⟨encode_of_lsLong rfl (by decide), loadTpc_writesTpc (s.loadBytes_word p)⟩,
    ⟨encode_of_lsLong rfl (by decide), loadTpc_writesTpc (sext8_loadBytes s p)⟩,
    ⟨encode_of_lsLong rfl (by decide), loadTpc_writesTpc (zext8_loadBytes s p)⟩,
    ⟨encode_of_lsLong rfl (by decide), loadTpc_writesTpc (sext16_loadBytes s p)⟩,
    ⟨encode_of_lsLong rfl (by decide), loadTpc_writesTpc (zext16_loadBytes s p)⟩,
    ⟨encode_of_lsLong rfl (by decide), loadTpc_writesTpc (s.loadBytes_word p)⟩⟩

/-- Settles O36: each is a store of `x[D]` at `x[A]` (C1), of the width of its row. -/
theorem storeFormA : Obligations.StoreFormA := fun _ _ _ _ =>
  ⟨⟨encode_short rfl (by simp [Nib.val]), storeA_stores⟩,
    ⟨encode_short rfl (by simp [Nib.val]), storeA_stores⟩,
    ⟨encode_short rfl (by simp [Nib.val]), storeA_stores⟩⟩

/-- Settles O37: each is a store of `x[D]` at VALUE, of the width of its row. -/
theorem storeFormC : Obligations.StoreFormC := fun _ _ _ _ =>
  ⟨⟨encode_of_lsLong rfl (by decide), storeCD_stores⟩,
    ⟨encode_of_lsLong rfl (by decide), storeCD_stores⟩,
    ⟨encode_of_lsLong rfl (by decide), storeCD_stores⟩⟩

/-- Settles O38: each is a store of `x[D]` at `x[A] + VALUE` (C2), of the width of its row. -/
theorem storeFormD : Obligations.StoreFormD := fun _ _ _ _ _ =>
  ⟨⟨encode_of_lsLong rfl (by decide), storeCD_stores⟩,
    ⟨encode_of_lsLong rfl (by decide), storeCD_stores⟩,
    ⟨encode_of_lsLong rfl (by decide), storeCD_stores⟩⟩

/-- Settles O39: the stores of forms C and D once more, of what a read of TPC by name gives (C22). -/
theorem storeOfTpc : Obligations.StoreOfTpc := fun _ _ _ _ =>
  ⟨⟨encode_of_lsLong rfl (by decide), storeTpc_stores⟩,
    ⟨encode_of_lsLong rfl (by decide), storeTpc_stores⟩,
    ⟨encode_of_lsLong rfl (by decide), storeTpc_stores⟩,
    ⟨encode_of_lsLong rfl (by decide), storeTpc_stores⟩,
    ⟨encode_of_lsLong rfl (by decide), storeTpc_stores⟩,
    ⟨encode_of_lsLong rfl (by decide), storeTpc_stores⟩⟩

/-- Settles O43: the three lengths are those of the length rule, and the rows those of the half of
`decodeLs` that INST[11] selects. -/
theorem loadStoreReserved : Obligations.LoadStoreReserved := by
  intro b a d fieldI s i
  have hlen := length_decodeWord_pack .xf b a d fieldI
  have hi : i = (decodeLs b a d).instr fieldI := decodeWord_pack_xf b a d fieldI
  refine ⟨fun hb hf => ?_, fun hb ha hd => ?_, fun hb => ?_⟩
  · obtain ⟨hexec, hres⟩ := decodeLs_raisesSii hb hf fieldI s
    rw [if_pos (.inr (.inr hf))] at hlen
    rw [hi]
    exact ⟨hexec, hi ▸ hlen, hres⟩
  · have hbf : b ≠ .xf := by rintro rfl; exact absurd hb (by decide)
    rw [if_neg (by simp [hb, hbf, ha, hd])] at hlen
    refine ⟨?_, hlen⟩
    obtain ⟨mk, hmk, hdec⟩ := decodeLs_eq_decodeLsA hb
    obtain ⟨a, rfl⟩ := exists_reg_of_ne_xf ha
    obtain ⟨d, rfl⟩ := exists_reg_of_ne_xf hd
    rw [hi, hdec, decodeLsA_reg]
    exact hmk a d
  · rw [if_pos (.inl ⟨rfl, hb⟩)] at hlen
    refine ⟨?_, hlen⟩
    obtain ⟨f, hdec, hf⟩ := decodeLs_eq_long hb a d
    rw [hi, hdec]
    exact hf fieldI

end Sys2Proof.Machine
end

section
/-!
PROOFS. The families 47_reserved.md, 60_exceptions.md and 70_reset_and_hazards.md: which values of
INST are reserved (R359) and what they do (R350), the interrupt (R380), what changes the mode (R41,
R372), the state after reset (R411) and the end of a run (R415). Which values are reserved is said
once for each group of R100, by the conditions of the group's own table; that these make up the
fourteen patterns is then arithmetic of the four fields. What changes the mode is read off the case
lists `step_next` and `exec_next`.
-/

namespace Sys2Proof

/-! ## The fields as numbers -/

theorem Nib.val_ofBits (v : BitVec 4) : (Nib.ofBits v).val = v.toNat := by
  revert v; decide

theorem Nib.val_injective : Function.Injective Nib.val := by
  intro n m h
  have hb : n.bits = m.bits := congrArg (BitVec.ofNat 4) h
  rw [← n.ofBits_bits, hb, m.ofBits_bits]

theorem Nib.val_le (n : Nib) : n.val ≤ 15 := by
  cases n <;> decide

theorem Nib.eq_xf_iff_val {n : Nib} : n = .xf ↔ n.val = 15 :=
  ⟨fun h => by rw [h]; rfl, fun h => Nib.val_injective h⟩

@[simp] theorem Nib.val_xf : Nib.xf.val = 15 := rfl

@[simp] theorem Reg.val_nib_le (r : Reg) : r.nib.val ≤ 14 := Nib.val_le_of_ne_xf r.nib_ne_xf

@[simp] theorem Reg.val_nib_ne (r : Reg) : r.nib.val ≠ 15 :=
  mt Nib.eq_xf_iff_val.2 r.nib_ne_xf

theorem Reg.eq_iff_val_nib {r q : Reg} : r = q ↔ r.nib.val = q.nib.val :=
  ⟨fun h => by rw [h], fun h => Reg.nib_injective (Nib.val_injective h)⟩

theorem Reg.eq_pc_iff_val_nib {r : Reg} : r = .pc ↔ r.nib.val = 0 := Reg.eq_iff_val_nib

/-! ## What the decoder marks as reserved -/

/-- The decoder's answer is a reserved encoding, whose FIELD_I is never fetched (R65, D29). -/
def Decoded.isReserved : Decoded → Bool
  | .reserved _ => true
  | .short _ | .long _ => false

/-- The reserved rows are those that the decoder answers as reserved (R350). -/
theorem isReserved_decodeWord (inst : Half) (v : Word) :
    (decodeWord inst v).isReserved = (decodeInst inst).isReserved := by
  have hsel := selects_decodeInst ((spells_decodeInst inst).inRow_instr v).wf
  rw [show encodeInst ((decodeInst inst).instr v) = inst from encodeInst_decodeWord inst v] at hsel
  rw [decodeWord]
  generalize (decodeInst inst).instr v = i at hsel ⊢
  generalize decodeInst inst = x at hsel ⊢
  cases hsel with
  | short hr | reserved hr | long _ hr => exact hr

/-! ## The reserved values of each group (R101 to R107) -/

theorem eq_true_iff_of_eq_decide {x : Bool} {p : Prop} [Decidable p] (h : x = decide p) :
    x = true ↔ p := by
  rw [h, decide_eq_true_iff]

/-- The holes of the XOR opcode, `0x0nn0` (R101, D7). -/
theorem isReserved_decodeXorHole (r : Reg) :
    (decodeXorHole r).isReserved = true ↔ 4 ≤ r.nib.val ∧ r.nib.val ≤ 12 := by
  cases r with
  | pc => exact eq_true_iff_of_eq_decide rfl
  | gp g => cases g <;> exact eq_true_iff_of_eq_decide rfl

section
variable {c : Nib} (hc : c ≠ .xf)
include hc

theorem isReserved_decodeCBAD (b a d : Reg) :
    (decodeCBAD c b a d).isReserved = true ↔
      (c.val = 0 ∧ d = .pc ∧ b = a ∧ 4 ≤ b.nib.val ∧ b.nib.val ≤ 12)
        ∨ (9 ≤ c.val ∧ (d = .pc ∨ b = .pc ∧ a = .pc)) := by
  cases c
  case x0 =>
    have h9 : ¬ 9 ≤ Nib.x0.val := by decide
    rw [decodeCBAD]
    by_cases h : d = .pc ∧ b = a
    · rw [if_pos h, isReserved_decodeXorHole]
      tauto
    · rw [if_neg h]
      exact iff_of_false Bool.false_ne_true (by tauto)
  case x1 =>
    rw [decodeCBAD]
    split <;> exact eq_true_iff_of_eq_decide rfl
  case x2 | x3 | x4 | x5 | x6 | x7 => exact eq_true_iff_of_eq_decide rfl
  case x8 => cases b <;> exact eq_true_iff_of_eq_decide rfl
  case x9 | xa | xb | xc | xd | xe =>
    cases d with
    | pc => exact eq_true_iff_of_eq_decide rfl
    | gp d => cases b <;> cases a <;> exact eq_true_iff_of_eq_decide rfl
  case xf => exact absurd rfl hc

theorem isReserved_decodeCBD (b d : Reg) :
    (decodeCBD c b d).isReserved = true ↔ 12 ≤ c.val ∧ (d = .pc ∨ b = .pc) := by
  cases c
  case xc | xd | xe => cases d <;> cases b <;> exact eq_true_iff_of_eq_decide rfl
  case xf => exact absurd rfl hc
  all_goals exact eq_true_iff_of_eq_decide rfl

theorem isReserved_decodeCAD (a d : Reg) :
    (decodeCAD c a d).isReserved = true ↔
      c.val ≤ 2 ∨ c.val = 4 ∨ (8 ≤ c.val ∧ c.val ≠ 13) ∨ (c.val = 13 ∧ (d = .pc ∨ a = .pc)) := by
  cases c
  case xd => cases d <;> cases a <;> exact eq_true_iff_of_eq_decide rfl
  case xf => exact absurd rfl hc
  all_goals exact eq_true_iff_of_eq_decide rfl

theorem isReserved_decodeCBA (b a : Reg) :
    (decodeCBA c b a).isReserved = true ↔
      (c.val = 0 ∧ 6 ≤ a.nib.val) ∨ (7 ≤ c.val ∧ c.val ≤ 12) := by
  cases c
  case x0 =>
    cases a with
    | pc => exact eq_true_iff_of_eq_decide rfl
    | gp g => cases g <;> exact eq_true_iff_of_eq_decide rfl
  case xf => exact absurd rfl hc
  all_goals exact eq_true_iff_of_eq_decide rfl

theorem isReserved_decodeCD (d : Reg) : (decodeCD c d).isReserved = true ↔ 2 ≤ c.val := by
  cases c
  case xf => exact absurd rfl hc
  all_goals exact eq_true_iff_of_eq_decide rfl

end

/-- The load/store space: with INST[11] = 0, FIELD_A or FIELD_D is 0xf (R106, R330). -/
theorem isReserved_decodeLs (b a d : Nib) :
    (decodeLs b a d).isReserved = true ↔ b.val < 8 ∧ (a = .xf ∨ d = .xf) := by
  by_cases hb : b.val < 8
  · obtain ⟨mk, -, hdec⟩ := decodeLs_eq_decodeLsA hb
    rw [hdec]
    obtain rfl | ⟨d, rfl⟩ := d.eq_xf_or_reg
    · rw [decodeLsA_fieldD]
      exact iff_of_true rfl ⟨hb, .inr rfl⟩
    obtain rfl | ⟨a, rfl⟩ := a.eq_xf_or_reg
    · rw [decodeLsA_fieldA]
      exact iff_of_true rfl ⟨hb, .inl rfl⟩
    · rw [decodeLsA_reg]
      exact iff_of_false Bool.false_ne_true (by simp)
  · obtain ⟨f, hdec, -⟩ := decodeLs_eq_long (Nat.not_lt.1 hb) a d
    rw [hdec]
    exact iff_of_false Bool.false_ne_true fun h => hb h.1

theorem decodeFields_xf (b a d : Nib) : decodeFields .xf b a d = decodeLs b a d := rfl

/-! ## The fourteen patterns -/

/-- Settles O3, group by group of R100: a field is 0xf or names a register, whose index is at most
14, so that in each group a few of the patterns are left. -/
theorem reservedPatterns : Obligations.ReservedPatterns := by
  intro inst fieldI
  rw [isReserved_decodeWord, decodeInst, fieldC, fieldB, fieldA, fieldD]
  simp only [← Nib.val_ofBits]
  generalize Nib.ofBits (inst.extractLsb' 12 4) = c
  generalize Nib.ofBits (inst.extractLsb' 8 4) = b
  generalize Nib.ofBits (inst.extractLsb' 4 4) = a
  generalize Nib.ofBits (inst.extractLsb' 0 4) = d
  obtain rfl | hc := eq_or_ne c .xf
  · have hd : d.val ≤ 15 := d.val_le
    rw [decodeFields_xf, isReserved_decodeLs, Nib.eq_xf_iff_val, Nib.eq_xf_iff_val]
    simp only [Nib.val_xf, Nat.reduceLeDiff, OfNat.ofNat_ne_zero, Nat.reduceEqDiff, true_and,
      false_and, and_false, or_false, false_or]
    omega
  have hc14 : c.val ≤ 14 := Nib.val_le_of_ne_xf hc
  have hc15 : c.val ≠ 15 := mt Nib.eq_xf_iff_val.2 hc
  obtain rfl | ⟨b, rfl⟩ := b.eq_xf_or_reg <;> obtain rfl | ⟨a, rfl⟩ := a.eq_xf_or_reg <;>
    obtain rfl | ⟨d, rfl⟩ := d.eq_xf_or_reg <;>
    simp only [hc14, hc15, Nib.val_xf, Reg.val_nib_le, Reg.val_nib_ne, Nat.reduceLeDiff,
      OfNat.ofNat_ne_zero, true_and, and_true, false_and, and_false, or_false, false_or]
  · rw [decodeFields_c hc]
    exact iff_of_true rfl trivial
  · rw [decodeFields_cd hc, isReserved_decodeCD hc]
  · rw [decodeFields_ca hc]
    exact iff_of_false Bool.false_ne_true not_false
  · rw [decodeFields_cad hc, isReserved_decodeCAD hc, Reg.eq_pc_iff_val_nib,
      Reg.eq_pc_iff_val_nib]
    omega
  · rw [decodeFields_cb hc]
    exact iff_of_false Bool.false_ne_true not_false
  · rw [decodeFields_cbd hc, isReserved_decodeCBD hc, Reg.eq_pc_iff_val_nib,
      Reg.eq_pc_iff_val_nib]
    omega
  · rw [decodeFields_cba hc, isReserved_decodeCBA hc]
  · rw [decodeFields_cbad hc, isReserved_decodeCBAD hc, Reg.eq_iff_val_nib (r := b) (q := a),
      Reg.eq_pc_iff_val_nib, Reg.eq_pc_iff_val_nib, Reg.eq_pc_iff_val_nib]
    omega

end Sys2Proof

namespace Sys2Proof.Machine

/-! ## Reserved encodings (R350) -/

theorem exec_of_isReserved {i : Instr} (h : i.isReserved = true) (s : State) :
    exec i s = s.raise .sii := by
  cases i
  case siiXorHole | siiAD0_9 | siiAD0_a | siiAD0_b | siiAD0_c | siiAD0_d | siiAD0_e
      | siiAB0A0_9 | siiAB0A0_a | siiAB0A0_b | siiAB0A0_c | siiAB0A0_d | siiAB0A0_e
      | siiBD0_c | siiBD0_d | siiBD0_e | siiBB0_c | siiBB0_d | siiBB0_e
      | siiC_0 | siiC_1 | siiC_2 | siiC_4 | siiC_8 | siiC_9 | siiC_a | siiC_b | siiC_c | siiC_e
      | siiCD0_d | siiCA0_d | siiBr0 | siiBr_7 | siiBr_8 | siiBr_9 | siiBr_a | siiBr_b | siiBr_c
      | siiCD | siiCOnly | siiLsADf | siiLsAAf => rfl
  all_goals cases h

/-! ## The interrupt (R380, R381) -/

theorem State.interrupted_of_high {s : State} {l : List Bool} (hm : s.mode = .task)
    (hi : s.irq = true :: l) : s.interrupted = true := by
  simp [State.interrupted, State.irqLevel, hm, hi]

theorem State.interrupted_of_scheduler {s : State} (h : s.mode = .scheduler) :
    s.interrupted = false := by
  simp [State.interrupted, h]

theorem step_of_interrupted {s : State} (h : s.interrupted = true) :
    step s = .next s.boundary.takeInterrupt := by
  rw [step, if_pos h]

/-- In SCHEDULER mode every step runs an instruction, whatever the level is. -/
theorem step_of_scheduler {s : State} (h : s.mode = .scheduler) :
    step s = s.boundary.runInstr := by
  rw [step, State.interrupted_of_scheduler h]
  rfl

/-! ## What changes the mode (R41, R372) -/

/-- TASK mode is left by FILL, BREAK and SYSCALL and by an exception alone (R372). -/
theorem ExecNext.cause_of_leavesTask {i : Instr} {s t : State} (h : ExecNext i s t)
    (hs : s.mode = .task) (ht : t.mode = .scheduler) :
    i = .fill ∨ i = .brk ∨ i = .syscall ∨ i.isReserved = true
      ∨ ∃ ea n k, dataAccess i s = some (ea, n, k) ∧ Refused s ea n k := by
  cases h with
  | enters hi => tauto
  | raises hm hi => tauto
  | writes d v =>
    obtain ⟨hm, -⟩ := s.writeX_keeps (lenWord i) d v
    cases ht.symm.trans (hm.trans hs)
  | writesTpc v =>
    obtain ⟨-, hm, -⟩ := s.writeTpc_keeps (lenWord i) v
    cases ht.symm.trans (hm.trans hs)
  | jumps | goesOn | stores | returns | fences | flushes => simp [hs] at ht

/-! ## The end of a run (R415) -/

theorem endOfRun_iff (s : State) :
    endOfRun s = true ↔ s.mode = .scheduler
      ∧ ∃ i, s.fetchInstr = .ok i ∧ (i = .woi ∨ i = .beq .pc .pc 0 true) := by
  rw [endOfRun]
  cases s.fetchInstr <;> simp

/-- With `PC_READ_BIAS` 0 the target of a branch over no distance is the branch (R260, D28). -/
theorem State.branchTarget_zero {s : State} (h : s.cfg.pcReadBias = 0) :
    s.branchTarget 0 true = s.curPc := by
  rw [State.branchTarget_relative, State.branchBase_of_noBias h]
  exact BitVec.add_zero _

/-- With `PC_READ_BIAS` 0 both instructions that end a run do nothing (R177, R415). -/
theorem exec_of_endsRun {i : Instr} (hi : i = .woi ∨ i = .beq .pc .pc 0 true) {s : State}
    (h : s.cfg.pcReadBias = 0) : exec i s = .next s := by
  rcases hi with rfl | rfl
  · rw [exec_woi, State.readX_pc_of_noBias h, State.jump_curPc]
  · calc exec (.beq .pc .pc 0 true) s
      _ = branch (isEqual (s.readX .pc) (s.readX .pc)) 0 true s := rfl
      _ = .next (s.jump (s.branchTarget 0 true)) := by
        rw [branch_next, if_pos ((isEqual_iff _ _).2 rfl)]
      _ = .next s := by rw [State.branchTarget_zero h, State.jump_curPc]

/-- The boundary does not change what is fetched: performing stores is not seen by the core, and an
MMU given as rules looks at no memory (R66, R74). -/
theorem State.fetchInstr_boundary {s : State} {l : List MmuRule} (hl : s.cfg.mmu = .rules l) :
    s.boundary.fetchInstr = s.fetchInstr :=
  have h : SameForCore { s with irq := s.irq.tail } s.boundary :=
    ⟨rfl, rfl, rfl, rfl, s.view_boundary, rfl, rfl, rfl⟩
  h.fetchInstr hl

theorem endOfRun_boundary {s : State} {l : List MmuRule} (hl : s.cfg.mmu = .rules l) :
    endOfRun s.boundary = endOfRun s := by
  rw [endOfRun, endOfRun, State.fetchInstr_boundary hl, State.boundary_mode]

/-! ## The obligations -/

/-- Settles O44: raising SII is the exception entry. -/
theorem reservedRaisesSii : Obligations.ReservedRaisesSii := by
  intro i s hr
  rw [exec_of_isReserved hr]
  exact ⟨fun hm => ⟨_, State.raise_task _ hm, OnlyMode.setMode s .scheduler⟩,
    State.raise_scheduler _⟩

/-- Settles O45: in TASK mode the step is the boundary and the change of mode; in SCHEDULER mode the
boundary uses the level up and the step does not look at it. -/
theorem interruptTaken : Obligations.InterruptTaken := by
  intro s l
  refine ⟨fun hm hi => ?_, fun hm => ?_⟩
  · exact ⟨_, step_of_interrupted (State.interrupted_of_high hm hi), rfl, rfl, rfl, rfl,
      State.readByte_congr s.view_boundary, congrArg List.tail hi, rfl⟩
  · have hirq (b : Bool) : step { s with irq := b :: l }
        = ({ s with irq := b :: l } : State).boundary.runInstr := step_of_scheduler hm
    exact (hirq true).trans (hirq false).symm

/-- Settles O53, by the case lists of a step and of an instruction. -/
theorem modeChanges : Obligations.ModeChanges := by
  refine ⟨fun s t hs h ht => ?_, fun s t hs h ht => ?_⟩
  · rcases step_next h with ⟨hi, -⟩ | ⟨-, i, hf, he⟩ | ⟨-, hx, -⟩
    · exact .inl hi
    · exact .inr (.inr ⟨i, hf, (exec_next he).cause_of_leavesTask hs ht⟩)
    · exact .inr (.inl hx)
  · rcases step_next h with ⟨hi, -⟩ | ⟨-, i, hf, he⟩ | ⟨-, -, hm, -⟩
    · cases (State.interrupted_of_scheduler hs).symm.trans hi
    · by_contra hne
      have hi : i ≠ .stu := by rintro rfl; exact hne hf
      cases ht.symm.trans ((exec_next he).mode_of_scheduler hs hi)
    · cases hs.symm.trans hm

/-- Settles O59: the step is the boundary and an instruction that does nothing. -/
theorem endOfRunStays : Obligations.EndOfRunStays := by
  intro s l hl hb he
  obtain ⟨hm, i, hf, hi⟩ := (endOfRun_iff s).1 he
  have hstep : step s = .next s.boundary :=
    (step_of_fetchInstr_ok (State.interrupted_of_scheduler hm)
      ((State.fetchInstr_boundary hl).trans hf)).trans (exec_of_endsRun hi hb)
  exact ⟨s.boundary, hstep, rfl, rfl, rfl, rfl, State.readByte_congr s.view_boundary,
    (endOfRun_boundary hl).trans he⟩

/-- Settles O50: after reset memory, the queue and the stale addresses are empty. -/
theorem resetIsWellFormed : Obligations.ResetIsWellFormed :=
  (State.wf_iff State.reset).2 ⟨rfl, rfl, rfl, rfl⟩

end Sys2Proof.Machine
end
